-- ==== Sys2Proof/Word.lean ====
section
/-! DEFINITION. The words of the block: bytes, bus addresses, and the plain data a memory is held in.

Rules: R5 (16-bit bus address, 8-bit datum), R34 (the program space and the RAM space), R41 (linear addresses). -/

namespace Sys2Proof

/-- One byte, the unit of every access (R5, R43, R45). -/
abbrev Byte := BitVec 8

/-- A bus address, 16 bits (R5, R34). -/
abbrev Addr := BitVec 16

/-- A memory as plain data: pairs of a LINEAR address (R41) and a byte, in the canonical form that `Memory.wf`
(Machine/Ops.lean) states. -/
abbrev Memory := List Host.Cell

end Sys2Proof
end

