-- ==== Sys2Proof/Config.lean ====
section
/-! DEFINITION. The parameters of one instance of the block: the cartridge's straps and image, and the values the source
leaves to the implementation (00_scope.md, section 3). They are constant for the life of an instance. `State` carries
the record and no step changes it, so that a statement over all states holds for every cartridge and for every choice
the source leaves open (log entry 1). The one value that is free at each use, the byte a clock collaborator returns when
the state names none, is the opaque constant at the end. -/

namespace Sys2Proof

/-- Bytes in a program bank (R5). -/
def progBankSize : Nat := 0x4000

/-- Bytes in a RAM bank (R5). -/
def ramBankSize : Nat := 0x2000

/-- The closed set of register protocols (R2). There is no Family4. -/
inductive Family where
  | noMapper
  | family1
  | family2
  | family3
  | family5
  | family6
  | family7
  deriving DecidableEq, Repr

/-- When the Family1 secondary register is given its meaning (R12, `F1_SEC_BINDING`). -/
inductive SecBinding where
  /-- Stored as written; the mode flag chooses its use at each later access. -/
  | atAccess
  /-- The mode flag at the time of the write chooses where the two bits go. -/
  | atWrite
  deriving DecidableEq, Repr

/-- The parameters of an instance (R6 to R15, summary table of 00_scope.md section 3). -/
structure Config where
  /-- `FAMILY` (R7); `none` is code 4, which names no family (R50, R56(e), R110). -/
  family     : Option Family
  /-- `HAS_RAM` (R8): read for family NoMapper only. -/
  hasRam     : Bool
  /-- The length in bytes of the raw program image (R6, R109). -/
  imageLen   : Nat
  /-- `ROM`, the program image by linear address (R29, R41); an unlisted address holds `Memory.blank`. -/
  image      : Memory
  /-- `N_RAM_BANKS` (R9). -/
  nRamBanks  : Nat
  /-- `OPEN_BUS` (R10). -/
  openBus    : Byte
  /-- `MODE_RESET` (R11). -/
  modeReset  : Bool
  /-- `F1_SEC_BINDING` (R12). -/
  secBinding : SecBinding
  /-- `F2_HI_NIBBLE` (R13). -/
  f2HiNibble : BitVec 4
  /-- `F7_NEUTRAL` (R14). -/
  f7Neutral  : Byte
  deriving DecidableEq, Repr

/-- `N_ROM_BANKS` (R6): the image is cut into consecutive banks of 16 KiB. -/
def Config.nRomBanks (c : Config) : Nat := c.imageLen / progBankSize

/-- The defaults of the summary table of 00_scope.md section 3 for the parameters the spec gives a value to (R9 to R14).
The cartridge itself (family, `HAS_RAM`, image) is DESIGN CHOICE, log entry 2 (unsafe): NoMapper, no RAM, one blank
bank, the smallest legal cartridge. The defaults are the spec's own decisions, log entry 3. -/
def Config.specDefaults : Config where
  family     := some .noMapper
  hasRam     := false
  imageLen   := progBankSize
  image      := []
  nRamBanks  := 16
  openBus    := 0xFF#8
  modeReset  := false
  secBinding := .atAccess
  f2HiNibble := 0xF#4
  f7Neutral  := 0xFF#8

/-- FREE VALUE (R92, R93, D25, U7; log entry 5): the byte `clk_q` carries at the n-th clock read for which the state
lists no byte supplied by a collaborator. Nothing constrains it. -/
opaque Config.freeClockByte : Nat → Byte

end Sys2Proof
end

