-- ==== Sys2Proof/Syntax.lean ====
section
/-! DEFINITION. The operations of the block: one constructor for each row of spec/opcode_table.json (R54). An operation is
a bus transaction (R51) seen through the row it matches: its operands are the address and, for a write, the value. The
family strap is no operand; it selects among the rows (R57(a)). -/

namespace Sys2Proof

/-- The direction `rw` of a transaction (R51). -/
inductive Dir where
  | read
  | write
  deriving DecidableEq, Repr

/-- A transaction: direction, address, and the value of a write (R51). The value of a read is 0 (R53). -/
structure Transaction where
  dir  : Dir
  addr : Addr
  data : Byte
  deriving DecidableEq, Repr

/-- The operations (R54): `rd…` rows are reads, `wr…` rows are writes, `cfgIllegal` is the row of family code 4. -/
inductive Instr where
  /-- `CFG.ILLEGAL` (R123): any transaction under family code 4. -/
  | cfgIllegal (d : Dir) (a : Addr) (v : Byte)
  /-- `RD.ROM0` (R60) -/
  | rdRom0 (a : Addr)
  /-- `RD.ROMX` (R61) -/
  | rdRomX (a : Addr)
  /-- `RD.INV8` (R63) -/
  | rdInv8 (a : Addr)
  /-- `RD.INVC` (R64) -/
  | rdInvC (a : Addr)
  /-- `RD.RAM.NM` (R72) -/
  | rdRamNm (a : Addr)
  /-- `RD.RAM.F1` (R78) -/
  | rdRamF1 (a : Addr)
  /-- `RD.RAM.F2` (R86) -/
  | rdRamF2 (a : Addr)
  /-- `RD.RAM.F3` (R92) -/
  | rdRamF3 (a : Addr)
  /-- `RD.RAM.F5` (R100) -/
  | rdRamF5 (a : Addr)
  /-- `RD.RAM.F6` (R103) -/
  | rdRamF6 (a : Addr)
  /-- `RD.RAM.F7` (R106) -/
  | rdRamF7 (a : Addr)
  /-- `WR.INV8` (R68) -/
  | wrInv8 (a : Addr) (v : Byte)
  /-- `WR.INVC` (R69) -/
  | wrInvC (a : Addr) (v : Byte)
  /-- `WR.NM.ROM` (R70) -/
  | wrNmRom (a : Addr) (v : Byte)
  /-- `WR.NM.RAM` (R71) -/
  | wrNmRam (a : Addr) (v : Byte)
  /-- `WR.F1.RAMEN` (R73) -/
  | wrF1RamEn (a : Addr) (v : Byte)
  /-- `WR.F1.BANKLO` (R74) -/
  | wrF1BankLo (a : Addr) (v : Byte)
  /-- `WR.F1.SEC` (R75) -/
  | wrF1Sec (a : Addr) (v : Byte)
  /-- `WR.F1.MODE` (R76) -/
  | wrF1Mode (a : Addr) (v : Byte)
  /-- `WR.F1.RAM` (R77) -/
  | wrF1Ram (a : Addr) (v : Byte)
  /-- `WR.F2.RAMEN` (R80) -/
  | wrF2RamEn (a : Addr) (v : Byte)
  /-- `WR.F2.NONE_A` (R82) -/
  | wrF2NoneA (a : Addr) (v : Byte)
  /-- `WR.F2.NONE_B` (R83) -/
  | wrF2NoneB (a : Addr) (v : Byte)
  /-- `WR.F2.BANK` (R81) -/
  | wrF2Bank (a : Addr) (v : Byte)
  /-- `WR.F2.NONE_C` (R84) -/
  | wrF2NoneC (a : Addr) (v : Byte)
  /-- `WR.F2.RAM` (R85) -/
  | wrF2Ram (a : Addr) (v : Byte)
  /-- `WR.F3.RAMEN` (R87) -/
  | wrF3RamEn (a : Addr) (v : Byte)
  /-- `WR.F3.BANK` (R88) -/
  | wrF3Bank (a : Addr) (v : Byte)
  /-- `WR.F3.RAMRTC` (R89) -/
  | wrF3RamRtc (a : Addr) (v : Byte)
  /-- `WR.F3.LATCH` (R90) -/
  | wrF3Latch (a : Addr) (v : Byte)
  /-- `WR.F3.RAM` (R91) -/
  | wrF3Ram (a : Addr) (v : Byte)
  /-- `WR.F5.RAMEN` (R94) -/
  | wrF5RamEn (a : Addr) (v : Byte)
  /-- `WR.F5.BANKLO` (R95) -/
  | wrF5BankLo (a : Addr) (v : Byte)
  /-- `WR.F5.BANKHI` (R96) -/
  | wrF5BankHi (a : Addr) (v : Byte)
  /-- `WR.F5.RAMB` (R97) -/
  | wrF5RamB (a : Addr) (v : Byte)
  /-- `WR.F5.NONE` (R98) -/
  | wrF5None (a : Addr) (v : Byte)
  /-- `WR.F5.RAM` (R99) -/
  | wrF5Ram (a : Addr) (v : Byte)
  /-- `WR.F6.REG` (R101) -/
  | wrF6Reg (a : Addr) (v : Byte)
  /-- `WR.F6.RAM` (R102) -/
  | wrF6Ram (a : Addr) (v : Byte)
  /-- `WR.F7.REG` (R104) -/
  | wrF7Reg (a : Addr) (v : Byte)
  /-- `WR.F7.RAM` (R105) -/
  | wrF7Ram (a : Addr) (v : Byte)
  deriving DecidableEq, Repr

end Sys2Proof
end

