-- ==== Sys2Proof/WellFormed.lean ====
section
/-! DEFINITION. Which operations are well formed under a family strap: the family the operation's row wants, the address
range it names, and the value a read carries. The ranges are R54's, as numbers (Decode.lean tests R54's address bits). -/

namespace Sys2Proof

/-- The address lies in the range, both ends included (notation of 00_scope.md section 4). -/
def within (lo hi : Nat) (a : Addr) : Bool := decide (lo ≤ a.toNat ∧ a.toNat ≤ hi)

/-- The family column of R54: `cfgIllegal` wants code 4, a common row any family, every other row its own family. -/
def Instr.familyOk (strap : Option Family) : Instr → Bool
  | .cfgIllegal _ _ _ => strap == none
  | .rdRom0 _ => strap.isSome
  | .rdRomX _ => strap.isSome
  | .rdInv8 _ => strap.isSome
  | .rdInvC _ => strap.isSome
  | .rdRamNm _ => strap == some .noMapper
  | .rdRamF1 _ => strap == some .family1
  | .rdRamF2 _ => strap == some .family2
  | .rdRamF3 _ => strap == some .family3
  | .rdRamF5 _ => strap == some .family5
  | .rdRamF6 _ => strap == some .family6
  | .rdRamF7 _ => strap == some .family7
  | .wrInv8 _ _ => strap.isSome
  | .wrInvC _ _ => strap.isSome
  | .wrNmRom _ _ => strap == some .noMapper
  | .wrNmRam _ _ => strap == some .noMapper
  | .wrF1RamEn _ _ => strap == some .family1
  | .wrF1BankLo _ _ => strap == some .family1
  | .wrF1Sec _ _ => strap == some .family1
  | .wrF1Mode _ _ => strap == some .family1
  | .wrF1Ram _ _ => strap == some .family1
  | .wrF2RamEn _ _ => strap == some .family2
  | .wrF2NoneA _ _ => strap == some .family2
  | .wrF2NoneB _ _ => strap == some .family2
  | .wrF2Bank _ _ => strap == some .family2
  | .wrF2NoneC _ _ => strap == some .family2
  | .wrF2Ram _ _ => strap == some .family2
  | .wrF3RamEn _ _ => strap == some .family3
  | .wrF3Bank _ _ => strap == some .family3
  | .wrF3RamRtc _ _ => strap == some .family3
  | .wrF3Latch _ _ => strap == some .family3
  | .wrF3Ram _ _ => strap == some .family3
  | .wrF5RamEn _ _ => strap == some .family5
  | .wrF5BankLo _ _ => strap == some .family5
  | .wrF5BankHi _ _ => strap == some .family5
  | .wrF5RamB _ _ => strap == some .family5
  | .wrF5None _ _ => strap == some .family5
  | .wrF5Ram _ _ => strap == some .family5
  | .wrF6Reg _ _ => strap == some .family6
  | .wrF6Ram _ _ => strap == some .family6
  | .wrF7Reg _ _ => strap == some .family7
  | .wrF7Ram _ _ => strap == some .family7

/-- The address column of R54. -/
def Instr.addrOk : Instr → Bool
  | .cfgIllegal _ _ _ => true
  | .rdRom0 a => within 0x0000 0x3FFF a
  | .rdRomX a => within 0x4000 0x7FFF a
  | .rdInv8 a => within 0x8000 0x9FFF a
  | .rdInvC a => within 0xC000 0xFFFF a
  | .rdRamNm a => within 0xA000 0xBFFF a
  | .rdRamF1 a => within 0xA000 0xBFFF a
  | .rdRamF2 a => within 0xA000 0xBFFF a
  | .rdRamF3 a => within 0xA000 0xBFFF a
  | .rdRamF5 a => within 0xA000 0xBFFF a
  | .rdRamF6 a => within 0xA000 0xBFFF a
  | .rdRamF7 a => within 0xA000 0xBFFF a
  | .wrInv8 a _ => within 0x8000 0x9FFF a
  | .wrInvC a _ => within 0xC000 0xFFFF a
  | .wrNmRom a _ => within 0x0000 0x7FFF a
  | .wrNmRam a _ => within 0xA000 0xBFFF a
  | .wrF1RamEn a _ => within 0x0000 0x1FFF a
  | .wrF1BankLo a _ => within 0x2000 0x3FFF a
  | .wrF1Sec a _ => within 0x4000 0x5FFF a
  | .wrF1Mode a _ => within 0x6000 0x7FFF a
  | .wrF1Ram a _ => within 0xA000 0xBFFF a
  | .wrF2RamEn a _ => within 0x0000 0x1FFF a && a.getLsbD 8 == false
  | .wrF2NoneA a _ => within 0x0000 0x1FFF a && a.getLsbD 8 == true
  | .wrF2NoneB a _ => within 0x2000 0x3FFF a && a.getLsbD 8 == false
  | .wrF2Bank a _ => within 0x2000 0x3FFF a && a.getLsbD 8 == true
  | .wrF2NoneC a _ => within 0x4000 0x7FFF a
  | .wrF2Ram a _ => within 0xA000 0xBFFF a
  | .wrF3RamEn a _ => within 0x0000 0x1FFF a
  | .wrF3Bank a _ => within 0x2000 0x3FFF a
  | .wrF3RamRtc a _ => within 0x4000 0x5FFF a
  | .wrF3Latch a _ => within 0x6000 0x7FFF a
  | .wrF3Ram a _ => within 0xA000 0xBFFF a
  | .wrF5RamEn a _ => within 0x0000 0x1FFF a
  | .wrF5BankLo a _ => within 0x2000 0x2FFF a
  | .wrF5BankHi a _ => within 0x3000 0x3FFF a
  | .wrF5RamB a _ => within 0x4000 0x5FFF a
  | .wrF5None a _ => within 0x6000 0x7FFF a
  | .wrF5Ram a _ => within 0xA000 0xBFFF a
  | .wrF6Reg a _ => within 0x0000 0x7FFF a
  | .wrF6Ram a _ => within 0xA000 0xBFFF a
  | .wrF7Reg a _ => within 0x0000 0x7FFF a
  | .wrF7Ram a _ => within 0xA000 0xBFFF a

/-- The value of a read is 0 (R53); only the row of code 4 can carry a read and a value together. -/
def Instr.dataOk : Instr → Bool
  | .cfgIllegal .read _ v => v == 0#8
  | _ => true

/-- An operation is well formed under a strap when all three checks pass. -/
def WellFormed (strap : Option Family) (i : Instr) : Bool := i.familyOk strap && i.addrOk && i.dataOk

end Sys2Proof
end

