-- ==== Sys2Proof/Decode.lean ====
section
/-! DEFINITION. From a transaction to its operation, and back: the windows (R35), the three-step decode (R54), the 28-bit
word `T` (R53), the encoder, and the rows of the operation table with their masks. The decode is total: for a legal
family every transaction has one operation (R59), and family code 4 decodes to `cfgIllegal` before any other row is
looked at (R56(e)). -/

namespace Sys2Proof

/-- The window of a bus address (R35). -/
inductive Window where
  | lower
  | upper
  | invalid8
  | ramWin
  | invalidC
  deriving DecidableEq, Repr

/-- `window(a)` by the address bits R35 names. -/
def window (a : Addr) : Window :=
  if a.extractLsb' 14 2 = 0b00#2 then .lower
  else if a.extractLsb' 14 2 = 0b01#2 then .upper
  else if a.extractLsb' 13 3 = 0b100#3 then .invalid8
  else if a.extractLsb' 13 3 = 0b101#3 then .ramWin
  else .invalidC

/-- Family codes (R50): code 4 names no family. -/
def familyOfCode (k : BitVec 3) : Option Family :=
  if k = 0#3 then some .noMapper
  else if k = 1#3 then some .family1
  else if k = 2#3 then some .family2
  else if k = 3#3 then some .family3
  else if k = 5#3 then some .family5
  else if k = 6#3 then some .family6
  else if k = 7#3 then some .family7
  else none

/-- The code of a strap (R50). -/
def codeOfFamily : Option Family → BitVec 3
  | some .noMapper => 0#3
  | some .family1 => 1#3
  | some .family2 => 2#3
  | some .family3 => 3#3
  | none => 4#3
  | some .family5 => 5#3
  | some .family6 => 6#3
  | some .family7 => 7#3

/-- A read in the RAM window (R54): one row per family. -/
def decodeRamRead (f : Family) (a : Addr) : Instr :=
  match f with
  | .noMapper => .rdRamNm a
  | .family1 => .rdRamF1 a
  | .family2 => .rdRamF2 a
  | .family3 => .rdRamF3 a
  | .family5 => .rdRamF5 a
  | .family6 => .rdRamF6 a
  | .family7 => .rdRamF7 a

/-- A write in the RAM window (R54): one row per family. -/
def decodeRamWrite (f : Family) (a : Addr) (v : Byte) : Instr :=
  match f with
  | .noMapper => .wrNmRam a v
  | .family1 => .wrF1Ram a v
  | .family2 => .wrF2Ram a v
  | .family3 => .wrF3Ram a v
  | .family5 => .wrF5Ram a v
  | .family6 => .wrF6Ram a v
  | .family7 => .wrF7Ram a v

/-- A write into the program window under Family1, by `a[15:13]` (R54). -/
def decodeF1 (a : Addr) (v : Byte) : Instr :=
  if a.extractLsb' 13 3 = 0b000#3 then .wrF1RamEn a v
  else if a.extractLsb' 13 3 = 0b001#3 then .wrF1BankLo a v
  else if a.extractLsb' 13 3 = 0b010#3 then .wrF1Sec a v
  else .wrF1Mode a v

/-- A write into the program window under Family2, by `a[15:13]` and `a[8]` (R54). -/
def decodeF2 (a : Addr) (v : Byte) : Instr :=
  if a.extractLsb' 13 3 = 0b000#3 then
    if a.getLsbD 8 then .wrF2NoneA a v else .wrF2RamEn a v
  else if a.extractLsb' 13 3 = 0b001#3 then
    if a.getLsbD 8 then .wrF2Bank a v else .wrF2NoneB a v
  else .wrF2NoneC a v

/-- A write into the program window under Family3, by `a[15:13]` (R54). -/
def decodeF3 (a : Addr) (v : Byte) : Instr :=
  if a.extractLsb' 13 3 = 0b000#3 then .wrF3RamEn a v
  else if a.extractLsb' 13 3 = 0b001#3 then .wrF3Bank a v
  else if a.extractLsb' 13 3 = 0b010#3 then .wrF3RamRtc a v
  else .wrF3Latch a v

/-- A write into the program window under Family5, by `a[15:13]` and `a[15:12]` (R54). -/
def decodeF5 (a : Addr) (v : Byte) : Instr :=
  if a.extractLsb' 13 3 = 0b000#3 then .wrF5RamEn a v
  else if a.extractLsb' 12 4 = 0b0010#4 then .wrF5BankLo a v
  else if a.extractLsb' 12 4 = 0b0011#4 then .wrF5BankHi a v
  else if a.extractLsb' 13 3 = 0b010#3 then .wrF5RamB a v
  else .wrF5None a v

/-- A write into the program window: a register write, by family (R66(a), R54). -/
def decodeRegWrite (f : Family) (a : Addr) (v : Byte) : Instr :=
  match f with
  | .noMapper => .wrNmRom a v
  | .family1 => decodeF1 a v
  | .family2 => decodeF2 a v
  | .family3 => decodeF3 a v
  | .family5 => decodeF5 a v
  | .family6 => .wrF6Reg a v
  | .family7 => .wrF7Reg a v

/-- The decode (R54): code 4 first (R56(e)), then direction and window, then the family. The written value never selects. -/
def decode (strap : Option Family) (d : Dir) (a : Addr) (v : Byte) : Instr :=
  match strap with
  | none => .cfgIllegal d a v
  | some f =>
    match d with
    | .read =>
      match window a with
      | .lower => .rdRom0 a
      | .upper => .rdRomX a
      | .invalid8 => .rdInv8 a
      | .ramWin => decodeRamRead f a
      | .invalidC => .rdInvC a
    | .write =>
      match window a with
      | .lower => decodeRegWrite f a v
      | .upper => decodeRegWrite f a v
      | .invalid8 => .wrInv8 a v
      | .ramWin => decodeRamWrite f a v
      | .invalidC => .wrInvC a v

/-- The operation of a transaction under a strap. -/
def decodeTransaction (strap : Option Family) (tx : Transaction) : Instr := decode strap tx.dir tx.addr tx.data

/-! ## The word `T` (R53) -/

/-- The bit `rw` (R53). -/
def dirOfBit (b : Bool) : Dir := if b then .write else .read

/-- `rw` of a direction (R53): 0 read, 1 write. -/
def bitOfDir : Dir → BitVec 1
  | .read => 0#1
  | .write => 1#1

/-- The strap field `T[27:25]`. -/
def wordStrap (t : BitVec 28) : Option Family := familyOfCode (t.extractLsb' 25 3)

/-- The transaction packed in `T[24:0]`. -/
def wordTransaction (t : BitVec 28) : Transaction :=
  ⟨dirOfBit (t.getLsbD 24), t.extractLsb' 8 16, t.extractLsb' 0 8⟩

/-- `T` from a strap and a transaction (R53). -/
def packWord (strap : Option Family) (tx : Transaction) : BitVec 28 :=
  codeOfFamily strap ++ bitOfDir tx.dir ++ tx.addr ++ tx.data

/-- The operation of a word `T`. -/
def decodeWord (t : BitVec 28) : Instr := decodeTransaction (wordStrap t) (wordTransaction t)

/-- Why a number is no transaction word. -/
inductive DecodeReject where
  /-- A bit above bit 27 is set: `T` has 28 bits (R53). -/
  | widerThanT
  deriving DecidableEq, Repr

/-- The operation of a number read as a word `T`, rejected by name when it has a bit above bit 27. -/
def decodeNumber (w : Nat) : Except DecodeReject Instr :=
  if w < 2 ^ 28 then .ok (decodeWord (BitVec.ofNat 28 w)) else .error .widerThanT

/-- The host's view of the decoder: `w` numbers the bits as the operation table does. The table's rows have 28 bits, so
the width the host gives adds nothing. -/
def decodeTableWord (_nbits w : Nat) : Option Instr :=
  match decodeNumber w with
  | .ok i => some i
  | .error _ => none

/-! ## The encoder -/

/-- The transaction an operation stands for: a read carries the value 0 (R51, R53). -/
def Instr.transaction : Instr → Transaction
  | .cfgIllegal d a v => ⟨d, a, v⟩
  | .rdRom0 a => ⟨.read, a, 0#8⟩
  | .rdRomX a => ⟨.read, a, 0#8⟩
  | .rdInv8 a => ⟨.read, a, 0#8⟩
  | .rdInvC a => ⟨.read, a, 0#8⟩
  | .rdRamNm a => ⟨.read, a, 0#8⟩
  | .rdRamF1 a => ⟨.read, a, 0#8⟩
  | .rdRamF2 a => ⟨.read, a, 0#8⟩
  | .rdRamF3 a => ⟨.read, a, 0#8⟩
  | .rdRamF5 a => ⟨.read, a, 0#8⟩
  | .rdRamF6 a => ⟨.read, a, 0#8⟩
  | .rdRamF7 a => ⟨.read, a, 0#8⟩
  | .wrInv8 a v => ⟨.write, a, v⟩
  | .wrInvC a v => ⟨.write, a, v⟩
  | .wrNmRom a v => ⟨.write, a, v⟩
  | .wrNmRam a v => ⟨.write, a, v⟩
  | .wrF1RamEn a v => ⟨.write, a, v⟩
  | .wrF1BankLo a v => ⟨.write, a, v⟩
  | .wrF1Sec a v => ⟨.write, a, v⟩
  | .wrF1Mode a v => ⟨.write, a, v⟩
  | .wrF1Ram a v => ⟨.write, a, v⟩
  | .wrF2RamEn a v => ⟨.write, a, v⟩
  | .wrF2NoneA a v => ⟨.write, a, v⟩
  | .wrF2NoneB a v => ⟨.write, a, v⟩
  | .wrF2Bank a v => ⟨.write, a, v⟩
  | .wrF2NoneC a v => ⟨.write, a, v⟩
  | .wrF2Ram a v => ⟨.write, a, v⟩
  | .wrF3RamEn a v => ⟨.write, a, v⟩
  | .wrF3Bank a v => ⟨.write, a, v⟩
  | .wrF3RamRtc a v => ⟨.write, a, v⟩
  | .wrF3Latch a v => ⟨.write, a, v⟩
  | .wrF3Ram a v => ⟨.write, a, v⟩
  | .wrF5RamEn a v => ⟨.write, a, v⟩
  | .wrF5BankLo a v => ⟨.write, a, v⟩
  | .wrF5BankHi a v => ⟨.write, a, v⟩
  | .wrF5RamB a v => ⟨.write, a, v⟩
  | .wrF5None a v => ⟨.write, a, v⟩
  | .wrF5Ram a v => ⟨.write, a, v⟩
  | .wrF6Reg a v => ⟨.write, a, v⟩
  | .wrF6Ram a v => ⟨.write, a, v⟩
  | .wrF7Reg a v => ⟨.write, a, v⟩
  | .wrF7Ram a v => ⟨.write, a, v⟩

/-- The word of an operation under a strap (R53): `T = {fam, rw, addr, data}`. -/
def encode (strap : Option Family) (i : Instr) : BitVec 28 := packWord strap i.transaction

/-! ## The rows of spec/opcode_table.json -/

/-- A row of the operation table: it matches `T` when `T AND mask = match` (R53). -/
structure Row where
  name : String
  mask : BitVec 28
  want : BitVec 28
  deriving DecidableEq, Repr

/-- The row matches the word (R53). -/
def Row.hits (r : Row) (t : BitVec 28) : Bool := t &&& r.mask == r.want

/-- The row each operation comes from. -/
def Instr.row : Instr → Row
  | .cfgIllegal _ _ _ => ⟨"CFG.ILLEGAL", 0xE000000#28, 0x8000000#28⟩
  | .rdRom0 _ => ⟨"RD.ROM0", 0x1C00000#28, 0x0000000#28⟩
  | .rdRomX _ => ⟨"RD.ROMX", 0x1C00000#28, 0x0400000#28⟩
  | .rdInv8 _ => ⟨"RD.INV8", 0x1E00000#28, 0x0800000#28⟩
  | .rdInvC _ => ⟨"RD.INVC", 0x1C00000#28, 0x0C00000#28⟩
  | .rdRamNm _ => ⟨"RD.RAM.NM", 0xFE00000#28, 0x0A00000#28⟩
  | .rdRamF1 _ => ⟨"RD.RAM.F1", 0xFE00000#28, 0x2A00000#28⟩
  | .rdRamF2 _ => ⟨"RD.RAM.F2", 0xFE00000#28, 0x4A00000#28⟩
  | .rdRamF3 _ => ⟨"RD.RAM.F3", 0xFE00000#28, 0x6A00000#28⟩
  | .rdRamF5 _ => ⟨"RD.RAM.F5", 0xFE00000#28, 0xAA00000#28⟩
  | .rdRamF6 _ => ⟨"RD.RAM.F6", 0xFE00000#28, 0xCA00000#28⟩
  | .rdRamF7 _ => ⟨"RD.RAM.F7", 0xFE00000#28, 0xEA00000#28⟩
  | .wrInv8 _ _ => ⟨"WR.INV8", 0x1E00000#28, 0x1800000#28⟩
  | .wrInvC _ _ => ⟨"WR.INVC", 0x1C00000#28, 0x1C00000#28⟩
  | .wrNmRom _ _ => ⟨"WR.NM.ROM", 0xF800000#28, 0x1000000#28⟩
  | .wrNmRam _ _ => ⟨"WR.NM.RAM", 0xFE00000#28, 0x1A00000#28⟩
  | .wrF1RamEn _ _ => ⟨"WR.F1.RAMEN", 0xFE00000#28, 0x3000000#28⟩
  | .wrF1BankLo _ _ => ⟨"WR.F1.BANKLO", 0xFE00000#28, 0x3200000#28⟩
  | .wrF1Sec _ _ => ⟨"WR.F1.SEC", 0xFE00000#28, 0x3400000#28⟩
  | .wrF1Mode _ _ => ⟨"WR.F1.MODE", 0xFE00000#28, 0x3600000#28⟩
  | .wrF1Ram _ _ => ⟨"WR.F1.RAM", 0xFE00000#28, 0x3A00000#28⟩
  | .wrF2RamEn _ _ => ⟨"WR.F2.RAMEN", 0xFE10000#28, 0x5000000#28⟩
  | .wrF2NoneA _ _ => ⟨"WR.F2.NONE_A", 0xFE10000#28, 0x5010000#28⟩
  | .wrF2NoneB _ _ => ⟨"WR.F2.NONE_B", 0xFE10000#28, 0x5200000#28⟩
  | .wrF2Bank _ _ => ⟨"WR.F2.BANK", 0xFE10000#28, 0x5210000#28⟩
  | .wrF2NoneC _ _ => ⟨"WR.F2.NONE_C", 0xFC00000#28, 0x5400000#28⟩
  | .wrF2Ram _ _ => ⟨"WR.F2.RAM", 0xFE00000#28, 0x5A00000#28⟩
  | .wrF3RamEn _ _ => ⟨"WR.F3.RAMEN", 0xFE00000#28, 0x7000000#28⟩
  | .wrF3Bank _ _ => ⟨"WR.F3.BANK", 0xFE00000#28, 0x7200000#28⟩
  | .wrF3RamRtc _ _ => ⟨"WR.F3.RAMRTC", 0xFE00000#28, 0x7400000#28⟩
  | .wrF3Latch _ _ => ⟨"WR.F3.LATCH", 0xFE00000#28, 0x7600000#28⟩
  | .wrF3Ram _ _ => ⟨"WR.F3.RAM", 0xFE00000#28, 0x7A00000#28⟩
  | .wrF5RamEn _ _ => ⟨"WR.F5.RAMEN", 0xFE00000#28, 0xB000000#28⟩
  | .wrF5BankLo _ _ => ⟨"WR.F5.BANKLO", 0xFF00000#28, 0xB200000#28⟩
  | .wrF5BankHi _ _ => ⟨"WR.F5.BANKHI", 0xFF00000#28, 0xB300000#28⟩
  | .wrF5RamB _ _ => ⟨"WR.F5.RAMB", 0xFE00000#28, 0xB400000#28⟩
  | .wrF5None _ _ => ⟨"WR.F5.NONE", 0xFE00000#28, 0xB600000#28⟩
  | .wrF5Ram _ _ => ⟨"WR.F5.RAM", 0xFE00000#28, 0xBA00000#28⟩
  | .wrF6Reg _ _ => ⟨"WR.F6.REG", 0xF800000#28, 0xD000000#28⟩
  | .wrF6Ram _ _ => ⟨"WR.F6.RAM", 0xFE00000#28, 0xDA00000#28⟩
  | .wrF7Reg _ _ => ⟨"WR.F7.REG", 0xF800000#28, 0xF000000#28⟩
  | .wrF7Ram _ _ => ⟨"WR.F7.RAM", 0xFE00000#28, 0xFA00000#28⟩

/-- The common read rows of R54. -/
def commonReadRows : List Row := [
  ⟨"RD.ROM0", 0x1C00000#28, 0x0000000#28⟩,
  ⟨"RD.ROMX", 0x1C00000#28, 0x0400000#28⟩,
  ⟨"RD.INV8", 0x1E00000#28, 0x0800000#28⟩,
  ⟨"RD.INVC", 0x1C00000#28, 0x0C00000#28⟩]

/-- The RAM-window read rows of R54. -/
def ramReadRows : List Row := [
  ⟨"RD.RAM.NM", 0xFE00000#28, 0x0A00000#28⟩,
  ⟨"RD.RAM.F1", 0xFE00000#28, 0x2A00000#28⟩,
  ⟨"RD.RAM.F2", 0xFE00000#28, 0x4A00000#28⟩,
  ⟨"RD.RAM.F3", 0xFE00000#28, 0x6A00000#28⟩,
  ⟨"RD.RAM.F5", 0xFE00000#28, 0xAA00000#28⟩,
  ⟨"RD.RAM.F6", 0xFE00000#28, 0xCA00000#28⟩,
  ⟨"RD.RAM.F7", 0xFE00000#28, 0xEA00000#28⟩]

/-- The rows of writes to the two invalid ranges. -/
def commonWriteRows : List Row := [
  ⟨"WR.INV8", 0x1E00000#28, 0x1800000#28⟩,
  ⟨"WR.INVC", 0x1C00000#28, 0x1C00000#28⟩]

/-- The NoMapper write rows. -/
def nmWriteRows : List Row := [
  ⟨"WR.NM.ROM", 0xF800000#28, 0x1000000#28⟩,
  ⟨"WR.NM.RAM", 0xFE00000#28, 0x1A00000#28⟩]

/-- The Family1 write rows. -/
def f1WriteRows : List Row := [
  ⟨"WR.F1.RAMEN", 0xFE00000#28, 0x3000000#28⟩,
  ⟨"WR.F1.BANKLO", 0xFE00000#28, 0x3200000#28⟩,
  ⟨"WR.F1.SEC", 0xFE00000#28, 0x3400000#28⟩,
  ⟨"WR.F1.MODE", 0xFE00000#28, 0x3600000#28⟩,
  ⟨"WR.F1.RAM", 0xFE00000#28, 0x3A00000#28⟩]

/-- The Family2 write rows. -/
def f2WriteRows : List Row := [
  ⟨"WR.F2.RAMEN", 0xFE10000#28, 0x5000000#28⟩,
  ⟨"WR.F2.NONE_A", 0xFE10000#28, 0x5010000#28⟩,
  ⟨"WR.F2.NONE_B", 0xFE10000#28, 0x5200000#28⟩,
  ⟨"WR.F2.BANK", 0xFE10000#28, 0x5210000#28⟩,
  ⟨"WR.F2.NONE_C", 0xFC00000#28, 0x5400000#28⟩,
  ⟨"WR.F2.RAM", 0xFE00000#28, 0x5A00000#28⟩]

/-- The Family3 write rows. -/
def f3WriteRows : List Row := [
  ⟨"WR.F3.RAMEN", 0xFE00000#28, 0x7000000#28⟩,
  ⟨"WR.F3.BANK", 0xFE00000#28, 0x7200000#28⟩,
  ⟨"WR.F3.RAMRTC", 0xFE00000#28, 0x7400000#28⟩,
  ⟨"WR.F3.LATCH", 0xFE00000#28, 0x7600000#28⟩,
  ⟨"WR.F3.RAM", 0xFE00000#28, 0x7A00000#28⟩]

/-- The Family5 write rows. -/
def f5WriteRows : List Row := [
  ⟨"WR.F5.RAMEN", 0xFE00000#28, 0xB000000#28⟩,
  ⟨"WR.F5.BANKLO", 0xFF00000#28, 0xB200000#28⟩,
  ⟨"WR.F5.BANKHI", 0xFF00000#28, 0xB300000#28⟩,
  ⟨"WR.F5.RAMB", 0xFE00000#28, 0xB400000#28⟩,
  ⟨"WR.F5.NONE", 0xFE00000#28, 0xB600000#28⟩,
  ⟨"WR.F5.RAM", 0xFE00000#28, 0xBA00000#28⟩]

/-- The Family6 and Family7 write rows. -/
def f67WriteRows : List Row := [
  ⟨"WR.F6.REG", 0xF800000#28, 0xD000000#28⟩,
  ⟨"WR.F6.RAM", 0xFE00000#28, 0xDA00000#28⟩,
  ⟨"WR.F7.REG", 0xF800000#28, 0xF000000#28⟩,
  ⟨"WR.F7.RAM", 0xFE00000#28, 0xFA00000#28⟩]

/-- The 41 rows of R54 for the legal families, as spec/opcode_table.json gives them. -/
def familyRows : List Row :=
  commonReadRows ++ ramReadRows ++ commonWriteRows ++ nmWriteRows ++ f1WriteRows ++ f2WriteRows ++ f3WriteRows ++ f5WriteRows ++ f67WriteRows

/-- All 42 rows; `CFG.ILLEGAL` is to be tested first (INDEX.md, R56(e)). -/
def opcodeRows : List Row := [⟨"CFG.ILLEGAL", 0xE000000#28, 0x8000000#28⟩] ++ familyRows

end Sys2Proof
end

