-- ==== Sys2Proof/Machine/State.lean ====
section
/-! DEFINITION. The state of the block as plain data, the reasons a step can stop, and the state after load.

Of the fields below, `regs` and `ram` are the block's state (R16); `config` holds the constants of the instance (R5 to
R15, R29); `master`, `clkIn` and `draws` are the inputs that arrive from outside (R46, R93); `last` is what the ports
show of the last transaction (R51, R52). -/

namespace Sys2Proof.Machine

/-- Reasons to stop with a fault: NONE. Every error the spec gives a transaction is a result code on the response, with
the machine going on (R112, R114; log entry 4), so no step faults. -/
inductive Fault where
  deriving DecidableEq, Repr

/-- Reasons to refuse. -/
inductive Refusal where
  /-- Raised by `exec`'s arm of an operation that has no meaning yet. Safe. No arm of this model raises it. -/
  | notModelled (mnemonic : String)
  /-- Raised by `CFG.ILLEGAL` (family code 4) and by a step of a machine whose image is empty or misaligned or that has
  no RAM bank: the spec builds no block from such a configuration and defines no step (R122, R123, U12). Safe. -/
  | illegalConfiguration
  deriving DecidableEq, Repr

/-- The protocol registers, one flat set for every family (R18 to R23; `bank0` is the constant 0, R24). -/
structure Regs where
  /-- `ram_en` (R19) -/
  ramEn  : Bool
  /-- `bank1` (R20) -/
  bank1  : BitVec 9
  /-- `sec` (R21) -/
  sec    : BitVec 2
  /-- `mode` (R22) -/
  mode   : Bool
  /-- `ramsel` (R23) -/
  ramsel : BitVec 4
  deriving DecidableEq, Repr

/-- The result codes (R107, R108, R112). Code 3 is never produced. -/
inductive Result where
  | ok
  | invalidAddress
  | unimplementedFamily
  deriving DecidableEq, Repr

/-- What a transaction drives outward beside its response (R52): at most one of the program array, the RAM array and the
clock collaborator is addressed. -/
inductive Port where
  /-- Nothing is addressed. -/
  | idle
  /-- `rom_bank`, `rom_off`. -/
  | rom (bank off : Nat)
  /-- `ram_bank`, `ram_off` with `ram_cs = 1`; for a write `ram_we = 1` and the byte on `ram_d`. -/
  | ram (bank off : Nat) (store : Option Byte)
  /-- `clk_idx`; a read drives `clk_rd`, a write `clk_wr` with the byte on `clk_d` (R93). -/
  | clock (idx : BitVec 4) (store : Option Byte)
  deriving DecidableEq, Repr

/-- The response of a transaction (R51, R112) and the ports it drove (R52). -/
structure Response where
  /-- `rsp_err` -/
  result : Result
  /-- `rsp_rdata`: a byte for a read that ends `ok`, and only then. -/
  rdata  : Option Byte
  port   : Port
  deriving DecidableEq, Repr

structure State where
  /-- The constants of the instance (R5 to R15). No step changes them. -/
  config : Config
  /-- The protocol registers (R18). -/
  regs   : Regs
  /-- The RAM banks, laid end to end (R28, R41). -/
  ram    : Memory
  /-- The transactions the master has yet to issue, in program order (R17, R46); empty is `req_valid = 0` (R52). -/
  master : List Transaction
  /-- The response to the last transaction; `none` before the first. -/
  last   : Option Response
  /-- The bytes a clock collaborator supplies to the clock reads to come, in order (`clk_q`, R93). -/
  clkIn  : List Byte
  /-- MODEL FIELD (log entry 5): how many clock reads took a free byte. -/
  draws  : Nat
  deriving DecidableEq, Repr

/-- The register values after load (R33, R125): `bank1 = 1`, `mode = MODE_RESET`, everything else 0. -/
def Regs.atLoad (c : Config) : Regs where
  ramEn  := false
  bank1  := 1#9
  sec    := 0#2
  mode   := c.modeReset
  ramsel := 0#4

/-- The state after load of an instance whose RAM banks hold `ramInit` (R124 to R126): no transaction has been issued. -/
def State.atLoad (c : Config) (ramInit : Memory) : State where
  config := c
  regs   := Regs.atLoad c
  ram    := ramInit
  master := []
  last   := none
  clkIn  := []
  draws  := 0

/-- The machine right after load, with zeroed RAM (R126) and the default parameters (log entries 2 and 3). -/
def State.reset : State := State.atLoad Config.specDefaults []

/-! ## The updates of a state -/

/-- Load the protocol registers. -/
def State.setRegs (r : Regs) (s : State) : State := { s with regs := r }

/-- Replace the RAM contents. -/
def State.setRam (m : Memory) (s : State) : State := { s with ram := m }

/-- End a transaction with a response. -/
def State.respond (r : Response) (s : State) : State := { s with last := some r }

/-- The transactions yet to be issued. -/
def State.setMaster (txs : List Transaction) (s : State) : State := { s with master := txs }

/-- The clock inputs yet to be used. -/
def State.setClock (bytes : List Byte) (n : Nat) (s : State) : State := { s with clkIn := bytes, draws := n }

end Sys2Proof.Machine
end

