-- ==== Sys2Proof/Machine/Operands.lean ====
section
/-! DEFINITION. Operands: the offsets an address gives (R133(d)), the fields a register write takes and where they go
(R55), and the bank selector mux that turns registers and parameters into bank indices and targets (R36 to R40). -/

namespace Sys2Proof.Machine

/-! ## Offsets -/

/-- `a[13:0]`, the offset in a program window (R36, R37). -/
def romOffset (a : Addr) : Nat := (a.extractLsb' 0 14).toNat

/-- `a[12:0]`, the offset in the RAM window (R39). -/
def ramOffset (a : Addr) : Nat := (a.extractLsb' 0 13).toNat

/-- `a[8:0]`, the Family2 cell (R85). -/
def cellOffset (a : Addr) : Nat := (a.extractLsb' 0 9).toNat

/-- The address lies in the 512-cell region of Family2, `a <= 0xA1FF` (R85, R86). -/
def inCellRegion (a : Addr) : Bool := decide (a.toNat ≤ 0xA1FF)

/-! ## Fields of the written value (R55) -/

/-- `v[3:0]` -/
def low4 (v : Byte) : BitVec 4 := v.extractLsb' 0 4

/-- `v[4:0]` -/
def low5 (v : Byte) : BitVec 5 := v.extractLsb' 0 5

/-- `v[6:0]` -/
def low7 (v : Byte) : BitVec 7 := v.extractLsb' 0 7

/-- `v[1:0]` -/
def low2 (v : Byte) : BitVec 2 := v.extractLsb' 0 2

/-- `v[0]` -/
def low1 (v : Byte) : BitVec 1 := v.extractLsb' 0 1

/-! ## Placing a field in a register -/

/-- `bank1[4:0] <- n` (R74) -/
def bank1SetLow5 (b : BitVec 9) (n : BitVec 5) : BitVec 9 := b.extractLsb' 5 4 ++ n

/-- `bank1[6:5] <- n` (R75, `AT_WRITE`) -/
def bank1SetBits65 (b : BitVec 9) (n : BitVec 2) : BitVec 9 := b.extractLsb' 7 2 ++ n ++ b.extractLsb' 0 5

/-- `bank1[3:0] <- n` (R81) -/
def bank1SetLow4 (b : BitVec 9) (n : BitVec 4) : BitVec 9 := b.extractLsb' 4 5 ++ n

/-- `bank1[6:0] <- n` (R88) -/
def bank1SetLow7 (b : BitVec 9) (n : BitVec 7) : BitVec 9 := b.extractLsb' 7 2 ++ n

/-- `bank1[7:0] <- n` (R95) -/
def bank1SetLow8 (b : BitVec 9) (n : BitVec 8) : BitVec 9 := b.extractLsb' 8 1 ++ n

/-- `bank1[8] <- n` (R96) -/
def bank1SetBit8 (b : BitVec 9) (n : BitVec 1) : BitVec 9 := n ++ b.extractLsb' 0 8

/-- `ramsel[1:0] <- n` (R75, `AT_WRITE`) -/
def ramselSetLow2 (r : BitVec 4) (n : BitVec 2) : BitVec 4 := r.extractLsb' 2 2 ++ n

/-! ## The bank selector mux -/

/-- The bank-0 selector, the constant 0 of every family (R24). -/
def bank0 : Nat := 0

/-- The upper-window selector `romx_sel` (R38). Without a family no access is made (R123). -/
def romxSel (c : Config) (r : Regs) : BitVec 9 :=
  match c.family with
  | none => r.bank1
  | some .noMapper => r.bank1
  | some .family1 =>
    match c.secBinding with
    | .atAccess =>
      if r.mode then (r.bank1.extractLsb' 0 5).setWidth 9 else (r.sec ++ r.bank1.extractLsb' 0 5).setWidth 9
    | .atWrite => (r.bank1.extractLsb' 0 7).setWidth 9
  | some .family2 => (r.bank1.extractLsb' 0 4).setWidth 9
  | some .family3 => (r.bank1.extractLsb' 0 7).setWidth 9
  | some .family5 => r.bank1
  | some .family6 => r.bank1
  | some .family7 => r.bank1

/-- The program bank of the upper window, `romx_sel mod N_ROM_BANKS` (R36). -/
def romxIdx (c : Config) (r : Regs) : Nat := (romxSel c r).toNat % c.nRomBanks

/-- The RAM selector `ram_sel` (R39). -/
def ramSel (c : Config) (r : Regs) : BitVec 4 :=
  match c.family with
  | none => 0#4
  | some .noMapper => 0#4
  | some .family1 =>
    match c.secBinding with
    | .atAccess => if r.mode then r.sec.setWidth 4 else 0#4
    | .atWrite => (r.ramsel.extractLsb' 0 2).setWidth 4
  | some .family2 => 0#4
  | some .family3 => r.ramsel
  | some .family5 => r.ramsel
  | some .family6 => 0#4
  | some .family7 => 0#4

/-- The RAM bank, `ram_sel mod N_RAM_BANKS` (R39). -/
def ramIdx (c : Config) (r : Regs) : Nat := (ramSel c r).toNat % c.nRamBanks

/-- What a RAM-window access reaches (R40). -/
inductive RamTarget where
  | ram (bank off : Nat)
  | clock (idx : BitVec 4)
  | nothing
  deriving DecidableEq, Repr

/-- `ram_target` (R40); evaluated only when the gate is open, and never for Family7 (R105, R106). -/
def ramTarget (c : Config) (r : Regs) (a : Addr) : RamTarget :=
  match c.family with
  | none => .nothing
  | some .noMapper => .ram (ramIdx c r) (ramOffset a)
  | some .family1 => .ram (ramIdx c r) (ramOffset a)
  | some .family2 => if inCellRegion a then .ram (ramIdx c r) (cellOffset a) else .nothing
  | some .family3 =>
    if r.ramsel.toNat ≤ 0x7 then .ram (ramIdx c r) (ramOffset a)
    else if r.ramsel.toNat ≤ 0xC then .clock r.ramsel
    else .nothing
  | some .family5 => .ram (ramIdx c r) (ramOffset a)
  | some .family6 => .ram (ramIdx c r) (ramOffset a)
  | some .family7 => .nothing

end Sys2Proof.Machine
end

