-- ==== Sys2Proof/Machine/Flags.lean ====
section
/-! DEFINITION. The comparisons of the block (R133(b)): the value that opens the RAM gate, the remap of a bank field from 0
to 1, and the gate itself (sub-block ram_enable_gate, R27). -/

namespace Sys2Proof.Machine

/-- What a write to a RAM-enable register makes of `ram_en`: 1 when `v[3:0] = 0xA`, else 0 (R73, R80, R87, R94). -/
def enableValue (v : Byte) : Bool := low4 v == 0xA#4

/-- The remap of a bank field: 0 becomes 1 (R74, R81, R88). -/
def remapZero {n : Nat} (f : BitVec n) : BitVec n := if f = 0#n then 1#n else f

/-- `ram_gate` (R27): `HAS_RAM` under NoMapper, `ram_en` otherwise. -/
def ramGate (c : Config) (r : Regs) : Bool :=
  match c.family with
  | some .noMapper => c.hasRam
  | none => r.ramEn
  | some .family1 => r.ramEn
  | some .family2 => r.ramEn
  | some .family3 => r.ramEn
  | some .family5 => r.ramEn
  | some .family6 => r.ramEn
  | some .family7 => r.ramEn

end Sys2Proof.Machine
end

