-- ==== Sys2Proof/Machine/Ops.lean ====
section
/-! DEFINITION. The operations every meaning is made of: a memory of bytes in canonical form, the program image and the RAM
banks, the ways a transaction ends (among them raising an error, the block's only exception), the byte of a clock read,
and the two RAM-window procedures (R62, R67). -/

namespace Sys2Proof

/-- What an address that a memory does not list reads as. RAM is zero at load (R15, R126). For the program image it is a
way of writing the image down: every image has one canonical list (log entry 7). -/
def Memory.blank : Byte := 0x00#8

/-- The byte at an address. -/
def Memory.read : Memory → Nat → Byte
  | [], _ => Memory.blank
  | c :: m, k => if c.1 = k then c.2 else Memory.read m k

/-- Put a byte in front of a list whose addresses are all above it, listing it only if it is not blank. -/
def Memory.cons (k : Nat) (v : Byte) (m : Memory) : Memory := if v = Memory.blank then m else (k, v) :: m

/-- Store a byte, keeping the canonical form. -/
def Memory.write : Memory → Nat → Byte → Memory
  | [], k, v => Memory.cons k v []
  | c :: m, k, v =>
    if k < c.1 then Memory.cons k v (c :: m)
    else if k = c.1 then Memory.cons k v m
    else c :: Memory.write m k v

/-- The canonical form: addresses strictly rising, no entry equal to what an unlisted address reads as. -/
abbrev Memory.wf (m : Memory) : Prop := m.Pairwise (fun x y => x.1 < y.1) ∧ ∀ c ∈ m, c.2 ≠ Memory.blank

/-- Every listed address is below a bound. -/
abbrev Memory.below (m : Memory) (n : Nat) : Prop := ∀ c ∈ m, c.1 < n

/-- The memory that holds a list of bytes from an address on. -/
def Memory.ofBytes : Nat → List Byte → Memory
  | _, [] => []
  | k, b :: bs => Memory.cons k b (Memory.ofBytes (k + 1) bs)

namespace Machine

/-! ## The arrays (R29, R28, R41) -/

/-- `RomRead(b, o)` (00_scope.md section 4): byte `b * 0x4000 + o` of the image. -/
def romRead (c : Config) (b o : Nat) : Byte := c.image.read (b * progBankSize + o)

/-- `RamRead(b, o)`: cell `b * 0x2000 + o` of the RAM banks laid end to end. -/
def ramRead (s : State) (b o : Nat) : Byte := s.ram.read (b * ramBankSize + o)

/-- `RamWrite(b, o, v)`. -/
def ramWrite (b o : Nat) (v : Byte) (s : State) : State := s.setRam (s.ram.write (b * ramBankSize + o) v)

/-! ## How a transaction ends (R51, R112) -/

/-- A read ends `OK` with a byte. -/
def endRead (v : Byte) (p : Port) (s : State) : Host.Outcome State Fault Refusal :=
  .next (s.respond ⟨.ok, some v, p⟩)

/-- A write ends `OK`. -/
def endWrite (p : Port) (s : State) : Host.Outcome State Fault Refusal :=
  .next (s.respond ⟨.ok, none, p⟩)

/-- `raise E` (R112): the transaction ends with the result code and no byte, and changes no register and no RAM cell.
There is no return from it and nothing to restore: the block accepts the next transaction (R114). -/
def raiseError (e : Result) (s : State) : Host.Outcome State Fault Refusal :=
  .next (s.respond ⟨e, none, .idle⟩)

/-- No block exists to take the transaction (R123). -/
def refuseConfiguration (_s : State) : Host.Outcome State Fault Refusal := .refused .illegalConfiguration

/-! ## The clock byte (R92, R93; log entry 5) -/

/-- The byte on `clk_q` for this clock read: the next one the collaborator supplies, else a free byte. -/
def clockByte (s : State) : Byte :=
  match s.clkIn with
  | b :: _ => b
  | [] => Config.freeClockByte s.draws

/-- The inputs left after a clock read. -/
def clockUsed (s : State) : State :=
  match s.clkIn with
  | _ :: bs => s.setClock bs s.draws
  | [] => s.setClock [] (s.draws + 1)

/-! ## The RAM window -/

/-- `RamWindowRead(a)` (R62). -/
def ramWindowRead (a : Addr) (s : State) : Host.Outcome State Fault Refusal :=
  if ramGate s.config s.regs then
    match ramTarget s.config s.regs a with
    | .ram b o => endRead (ramRead s b o) (.ram b o none) s
    | .clock i => endRead (clockByte s) (.clock i none) (clockUsed s)
    | .nothing => endRead s.config.openBus .idle s
  else endRead s.config.openBus .idle s

/-- `RamWindowWrite(a, v)` (R67). -/
def ramWindowWrite (a : Addr) (v : Byte) (s : State) : Host.Outcome State Fault Refusal :=
  if ramGate s.config s.regs then
    match ramTarget s.config s.regs a with
    | .ram b o => endWrite (.ram b o (some v)) (ramWrite b o v s)
    | .clock i => endWrite (.clock i (some v)) s
    | .nothing => endWrite .idle s
  else endWrite .idle s

/-! ## Presenting a transaction -/

/-- The transaction the master issues next, and the state once it has been taken (R46). -/
def takeTransaction (s : State) : Option (Transaction × State) :=
  match s.master with
  | [] => none
  | tx :: txs => some (tx, s.setMaster txs)

/-- The state in which the transaction of the word `T` is the next one the master issues, on a cartridge strapped as `T`
says (R53). -/
def presentWord (t : BitVec 28) (s : State) : State :=
  { s with config := { s.config with family := wordStrap t }, master := wordTransaction t :: s.master }

end Machine

end Sys2Proof
end

