-- ==== Sys2Proof/Machine/Family1.lean ====
section
/-! DEFINITION. Family1 (42_family1.md). -/

namespace Sys2Proof.Machine

/-- `WR.F1.RAMEN` (R73) -/
def execWrF1RamEn (_a : Addr) (v : Byte) (s : State) : Host.Outcome State Fault Refusal :=
  endWrite .idle (s.setRegs { s.regs with ramEn := enableValue v })

/-- `WR.F1.BANKLO` (R74): five bits, 0 remapped to 1, the bits above kept. -/
def execWrF1BankLo (_a : Addr) (v : Byte) (s : State) : Host.Outcome State Fault Refusal :=
  endWrite .idle (s.setRegs { s.regs with bank1 := bank1SetLow5 s.regs.bank1 (remapZero (low5 v)) })

/-- `WR.F1.SEC` (R75): into `sec` under `AT_ACCESS`, else where the mode flag sends the two bits. -/
def execWrF1Sec (_a : Addr) (v : Byte) (s : State) : Host.Outcome State Fault Refusal :=
  match s.config.secBinding with
  | .atAccess => endWrite .idle (s.setRegs { s.regs with sec := low2 v })
  | .atWrite =>
    if s.regs.mode then endWrite .idle (s.setRegs { s.regs with ramsel := ramselSetLow2 s.regs.ramsel (low2 v) })
    else endWrite .idle (s.setRegs { s.regs with bank1 := bank1SetBits65 s.regs.bank1 (low2 v) })

/-- `WR.F1.MODE` (R76): `mode <- v[0]`. -/
def execWrF1Mode (_a : Addr) (v : Byte) (s : State) : Host.Outcome State Fault Refusal :=
  endWrite .idle (s.setRegs { s.regs with mode := low1 v == 1#1 })

/-- `WR.F1.RAM` (R77) -/
def execWrF1Ram (a : Addr) (v : Byte) (s : State) : Host.Outcome State Fault Refusal :=
  ramWindowWrite a v s

/-- `RD.RAM.F1` (R78) -/
def execRdRamF1 (a : Addr) (s : State) : Host.Outcome State Fault Refusal :=
  ramWindowRead a s

end Sys2Proof.Machine
end

