-- ==== Sys2Proof/Machine/Family2.lean ====
section
/-! DEFINITION. Family2 (43_family2.md): address bit 8 takes part in the decode, and the RAM is 512 cells of four bits. -/

namespace Sys2Proof.Machine

/-- `WR.F2.RAMEN` (R80) -/
def execWrF2RamEn (_a : Addr) (v : Byte) (s : State) : Host.Outcome State Fault Refusal :=
  endWrite .idle (s.setRegs { s.regs with ramEn := enableValue v })

/-- `WR.F2.BANK` (R81): four bits, 0 remapped to 1. -/
def execWrF2Bank (_a : Addr) (v : Byte) (s : State) : Host.Outcome State Fault Refusal :=
  endWrite .idle (s.setRegs { s.regs with bank1 := bank1SetLow4 s.regs.bank1 (remapZero (low4 v)) })

/-- `WR.F2.NONE_A` (R82): a register write to no register. -/
def execWrF2NoneA (_a : Addr) (_v : Byte) (s : State) : Host.Outcome State Fault Refusal :=
  endWrite .idle s

/-- `WR.F2.NONE_B` (R83): a register write to no register. -/
def execWrF2NoneB (_a : Addr) (_v : Byte) (s : State) : Host.Outcome State Fault Refusal :=
  endWrite .idle s

/-- `WR.F2.NONE_C` (R84): a register write to no register. -/
def execWrF2NoneC (_a : Addr) (_v : Byte) (s : State) : Host.Outcome State Fault Refusal :=
  endWrite .idle s

/-- The byte a Family2 cell reads as: `{F2_HI_NIBBLE, cell[3:0]}` (R86). -/
def cellByte (c : Config) (cell : Byte) : Byte := c.f2HiNibble ++ low4 cell

/-- `WR.F2.RAM` (R85): the cell keeps `v[3:0]`; outside the 512 cells the write is dropped. -/
def execWrF2Ram (a : Addr) (v : Byte) (s : State) : Host.Outcome State Fault Refusal :=
  if ramGate s.config s.regs then
    match ramTarget s.config s.regs a with
    | .ram b o => endWrite (.ram b o (some ((low4 v).setWidth 8))) (ramWrite b o ((low4 v).setWidth 8) s)
    | .clock _ => endWrite .idle s
    | .nothing => endWrite .idle s
  else endWrite .idle s

/-- `RD.RAM.F2` (R86) -/
def execRdRamF2 (a : Addr) (s : State) : Host.Outcome State Fault Refusal :=
  if ramGate s.config s.regs then
    match ramTarget s.config s.regs a with
    | .ram b o => endRead (cellByte s.config (ramRead s b o)) (.ram b o none) s
    | .clock _ => endRead s.config.openBus .idle s
    | .nothing => endRead s.config.openBus .idle s
  else endRead s.config.openBus .idle s

end Sys2Proof.Machine
end

