-- ==== Sys2Proof/Machine/Family3.lean ====
section
/-! DEFINITION. Family3 (44_family3.md): a 7-bit bank selector, and a RAM selector that also routes to a clock collaborator. -/

namespace Sys2Proof.Machine

/-- `WR.F3.RAMEN` (R87) -/
def execWrF3RamEn (_a : Addr) (v : Byte) (s : State) : Host.Outcome State Fault Refusal :=
  endWrite .idle (s.setRegs { s.regs with ramEn := enableValue v })

/-- `WR.F3.BANK` (R88): seven bits, 0 remapped to 1. -/
def execWrF3Bank (_a : Addr) (v : Byte) (s : State) : Host.Outcome State Fault Refusal :=
  endWrite .idle (s.setRegs { s.regs with bank1 := bank1SetLow7 s.regs.bank1 (remapZero (low7 v)) })

/-- `WR.F3.RAMRTC` (R89) -/
def execWrF3RamRtc (_a : Addr) (v : Byte) (s : State) : Host.Outcome State Fault Refusal :=
  endWrite .idle (s.setRegs { s.regs with ramsel := low4 v })

/-- `WR.F3.LATCH` (R90): no register of the block is there; nothing is forwarded. -/
def execWrF3Latch (_a : Addr) (_v : Byte) (s : State) : Host.Outcome State Fault Refusal :=
  endWrite .idle s

/-- `WR.F3.RAM` (R91): a RAM cell, a clock register at the collaborator (R93), or nothing. -/
def execWrF3Ram (a : Addr) (v : Byte) (s : State) : Host.Outcome State Fault Refusal :=
  ramWindowWrite a v s

/-- `RD.RAM.F3` (R92) -/
def execRdRamF3 (a : Addr) (s : State) : Host.Outcome State Fault Refusal :=
  ramWindowRead a s

end Sys2Proof.Machine
end

