-- ==== Sys2Proof/Machine/Family5.lean ====
section
/-! DEFINITION. Family5 (45_family5.md): a 9-bit bank selector written in two parts, bank 0 selectable, sixteen RAM banks. -/

namespace Sys2Proof.Machine

/-- `WR.F5.RAMEN` (R94) -/
def execWrF5RamEn (_a : Addr) (v : Byte) (s : State) : Host.Outcome State Fault Refusal :=
  endWrite .idle (s.setRegs { s.regs with ramEn := enableValue v })

/-- `WR.F5.BANKLO` (R95): no remap; bit 8 kept. -/
def execWrF5BankLo (_a : Addr) (v : Byte) (s : State) : Host.Outcome State Fault Refusal :=
  endWrite .idle (s.setRegs { s.regs with bank1 := bank1SetLow8 s.regs.bank1 v })

/-- `WR.F5.BANKHI` (R96): bit 8 from `v[0]`; bits 7:0 kept. -/
def execWrF5BankHi (_a : Addr) (v : Byte) (s : State) : Host.Outcome State Fault Refusal :=
  endWrite .idle (s.setRegs { s.regs with bank1 := bank1SetBit8 s.regs.bank1 (low1 v) })

/-- `WR.F5.RAMB` (R97) -/
def execWrF5RamB (_a : Addr) (v : Byte) (s : State) : Host.Outcome State Fault Refusal :=
  endWrite .idle (s.setRegs { s.regs with ramsel := low4 v })

/-- `WR.F5.NONE` (R98): a register write to no register. -/
def execWrF5None (_a : Addr) (_v : Byte) (s : State) : Host.Outcome State Fault Refusal :=
  endWrite .idle s

/-- `WR.F5.RAM` (R99) -/
def execWrF5Ram (a : Addr) (v : Byte) (s : State) : Host.Outcome State Fault Refusal :=
  ramWindowWrite a v s

/-- `RD.RAM.F5` (R100) -/
def execRdRamF5 (a : Addr) (s : State) : Host.Outcome State Fault Refusal :=
  ramWindowRead a s

end Sys2Proof.Machine
end

