-- ==== Sys2Proof/Machine/Family67.lean ====
section
/-! DEFINITION. Family6 and Family7 (46_family6_family7.md): protocols the source names and does not define. -/

namespace Sys2Proof.Machine

/-- `WR.F6.REG` (R101) -/
def execWrF6Reg (_a : Addr) (_v : Byte) (s : State) : Host.Outcome State Fault Refusal :=
  raiseError .unimplementedFamily s

/-- `WR.F6.RAM` (R102): the common write behind a gate nothing can open. -/
def execWrF6Ram (a : Addr) (v : Byte) (s : State) : Host.Outcome State Fault Refusal :=
  ramWindowWrite a v s

/-- `RD.RAM.F6` (R103): the common read behind a gate nothing can open. -/
def execRdRamF6 (a : Addr) (s : State) : Host.Outcome State Fault Refusal :=
  ramWindowRead a s

/-- `WR.F7.REG` (R104) -/
def execWrF7Reg (_a : Addr) (_v : Byte) (s : State) : Host.Outcome State Fault Refusal :=
  raiseError .unimplementedFamily s

/-- `WR.F7.RAM` (R105): a write to the sensor overlay, not a RAM write. -/
def execWrF7Ram (_a : Addr) (_v : Byte) (s : State) : Host.Outcome State Fault Refusal :=
  raiseError .unimplementedFamily s

/-- `RD.RAM.F7` (R106): the same neutral byte at every address and time. -/
def execRdRamF7 (_a : Addr) (s : State) : Host.Outcome State Fault Refusal :=
  endRead s.config.f7Neutral .idle s

end Sys2Proof.Machine
end

