-- ==== Sys2Proof/Machine/ReadPath.lean ====
section
/-! DEFINITION. The read path: the program windows and the two invalid ranges (40_read_path.md), and the row of family code 4. -/

namespace Sys2Proof.Machine

/-- `CFG.ILLEGAL` (R123): no transaction has a meaning, so the machine is refused. -/
def execCfgIllegal (_d : Dir) (_a : Addr) (_v : Byte) (s : State) : Host.Outcome State Fault Refusal :=
  refuseConfiguration s

/-- `RD.ROM0` (R60): bank 0, whatever the registers, the family and the history (R37). -/
def execRdRom0 (a : Addr) (s : State) : Host.Outcome State Fault Refusal :=
  endRead (romRead s.config bank0 (romOffset a)) (.rom bank0 (romOffset a)) s

/-- `RD.ROMX` (R61): the bank the selector names, wrapped at this read (R36). -/
def execRdRomX (a : Addr) (s : State) : Host.Outcome State Fault Refusal :=
  endRead (romRead s.config (romxIdx s.config s.regs) (romOffset a)) (.rom (romxIdx s.config s.regs) (romOffset a)) s

/-- `RD.INV8` (R63) -/
def execRdInv8 (_a : Addr) (s : State) : Host.Outcome State Fault Refusal :=
  raiseError .invalidAddress s

/-- `RD.INVC` (R64) -/
def execRdInvC (_a : Addr) (s : State) : Host.Outcome State Fault Refusal :=
  raiseError .invalidAddress s

end Sys2Proof.Machine
end

