-- ==== Sys2Proof/Machine/WriteCommon.lean ====
section
/-! DEFINITION. The writes every family has, and family NoMapper (41_write_common_nomapper.md). -/

namespace Sys2Proof.Machine

/-- `WR.INV8` (R68) -/
def execWrInv8 (_a : Addr) (_v : Byte) (s : State) : Host.Outcome State Fault Refusal :=
  raiseError .invalidAddress s

/-- `WR.INVC` (R69) -/
def execWrInvC (_a : Addr) (_v : Byte) (s : State) : Host.Outcome State Fault Refusal :=
  raiseError .invalidAddress s

/-- `WR.NM.ROM` (R70): NoMapper has no registers, the write is accepted and does nothing. -/
def execWrNmRom (_a : Addr) (_v : Byte) (s : State) : Host.Outcome State Fault Refusal :=
  endWrite .idle s

/-- `WR.NM.RAM` (R71): the gate is `HAS_RAM` and the bank is 0. -/
def execWrNmRam (a : Addr) (v : Byte) (s : State) : Host.Outcome State Fault Refusal :=
  ramWindowWrite a v s

/-- `RD.RAM.NM` (R72) -/
def execRdRamNm (a : Addr) (s : State) : Host.Outcome State Fault Refusal :=
  ramWindowRead a s

end Sys2Proof.Machine
end

