-- ==== Sys2Proof/Machine/Dispatch.lean ====
section
/-! DEFINITION. One arm per operation. That the operation belongs to the instance's family is the decoder's doing
(log entry 16). -/

namespace Sys2Proof.Machine

def exec (i : Instr) (s : State) : Host.Outcome State Fault Refusal :=
  match i with
  | .cfgIllegal d a v => Sys2Proof.Machine.execCfgIllegal d a v s
  | .rdRom0 a => Sys2Proof.Machine.execRdRom0 a s
  | .rdRomX a => Sys2Proof.Machine.execRdRomX a s
  | .rdInv8 a => Sys2Proof.Machine.execRdInv8 a s
  | .rdInvC a => Sys2Proof.Machine.execRdInvC a s
  | .wrInv8 a v => Sys2Proof.Machine.execWrInv8 a v s
  | .wrInvC a v => Sys2Proof.Machine.execWrInvC a v s
  | .wrNmRom a v => Sys2Proof.Machine.execWrNmRom a v s
  | .wrNmRam a v => Sys2Proof.Machine.execWrNmRam a v s
  | .rdRamNm a => Sys2Proof.Machine.execRdRamNm a s
  | .rdRamF1 a => Sys2Proof.Machine.execRdRamF1 a s
  | .rdRamF2 a => Sys2Proof.Machine.execRdRamF2 a s
  | .rdRamF3 a => Sys2Proof.Machine.execRdRamF3 a s
  | .rdRamF5 a => Sys2Proof.Machine.execRdRamF5 a s
  | .rdRamF6 a => Sys2Proof.Machine.execRdRamF6 a s
  | .rdRamF7 a => Sys2Proof.Machine.execRdRamF7 a s
  | .wrF1RamEn a v => Sys2Proof.Machine.execWrF1RamEn a v s
  | .wrF1BankLo a v => Sys2Proof.Machine.execWrF1BankLo a v s
  | .wrF1Sec a v => Sys2Proof.Machine.execWrF1Sec a v s
  | .wrF1Mode a v => Sys2Proof.Machine.execWrF1Mode a v s
  | .wrF1Ram a v => Sys2Proof.Machine.execWrF1Ram a v s
  | .wrF2RamEn a v => Sys2Proof.Machine.execWrF2RamEn a v s
  | .wrF2NoneA a v => Sys2Proof.Machine.execWrF2NoneA a v s
  | .wrF2NoneB a v => Sys2Proof.Machine.execWrF2NoneB a v s
  | .wrF2Bank a v => Sys2Proof.Machine.execWrF2Bank a v s
  | .wrF2NoneC a v => Sys2Proof.Machine.execWrF2NoneC a v s
  | .wrF2Ram a v => Sys2Proof.Machine.execWrF2Ram a v s
  | .wrF3RamEn a v => Sys2Proof.Machine.execWrF3RamEn a v s
  | .wrF3Bank a v => Sys2Proof.Machine.execWrF3Bank a v s
  | .wrF3RamRtc a v => Sys2Proof.Machine.execWrF3RamRtc a v s
  | .wrF3Latch a v => Sys2Proof.Machine.execWrF3Latch a v s
  | .wrF3Ram a v => Sys2Proof.Machine.execWrF3Ram a v s
  | .wrF5RamEn a v => Sys2Proof.Machine.execWrF5RamEn a v s
  | .wrF5BankLo a v => Sys2Proof.Machine.execWrF5BankLo a v s
  | .wrF5BankHi a v => Sys2Proof.Machine.execWrF5BankHi a v s
  | .wrF5RamB a v => Sys2Proof.Machine.execWrF5RamB a v s
  | .wrF5None a v => Sys2Proof.Machine.execWrF5None a v s
  | .wrF5Ram a v => Sys2Proof.Machine.execWrF5Ram a v s
  | .wrF6Reg a v => Sys2Proof.Machine.execWrF6Reg a v s
  | .wrF6Ram a v => Sys2Proof.Machine.execWrF6Ram a v s
  | .wrF7Reg a v => Sys2Proof.Machine.execWrF7Reg a v s
  | .wrF7Ram a v => Sys2Proof.Machine.execWrF7Ram a v s

end Sys2Proof.Machine
end

