-- ==== Sys2Proof/Machine/Load.lean ====
section
/-! DEFINITION. The load event and its failures (R109, R110, R122, R124 to R127), and the host's access to the RAM contents
for saving and restoring (R120, R126). -/

namespace Sys2Proof.Machine

/-- The image and the RAM are such that a block can be built: a non-zero whole number of program banks, at least one RAM
bank (R6, R9, R109, R122). -/
def buildable (c : Config) : Bool := c.imageLen % progBankSize == 0 && c.imageLen != 0 && c.nRamBanks != 0

/-- A legal configuration (R122). -/
def legal (c : Config) : Bool := c.family.isSome && buildable c

/-- Why construction fails. -/
inductive LoadError where
  /-- The image length is 0 or no multiple of the bank size (R109). -/
  | malformedImage
  /-- The header names no family (R110). -/
  | unknownCartridgeType
  /-- There is no RAM bank (R9, R122). -/
  | noRamBank
  deriving DecidableEq, Repr

/-- A configuration with the raw image attached: byte `k` of the image is linear address `k` (R29, R41). -/
def attachImage (raw : List Byte) (c : Config) : Config :=
  { c with imageLen := raw.length, image := Memory.ofBytes 0 raw }

/-- The load event (R124): attach the image, fail if the configuration is illegal, else the state after load with the RAM
banks zeroed (R126). -/
def load (raw : List Byte) (c : Config) : Except LoadError State :=
  if raw.length % progBankSize ≠ 0 ∨ raw.length = 0 then .error .malformedImage
  else if c.family = none then .error .unknownCartridgeType
  else if c.nRamBanks = 0 then .error .noRamBank
  else .ok (State.atLoad (attachImage raw c) [])

/-- The RAM contents as handed to a collaborator: all banks in order, byte by byte, past the gate and the selectors
(R120, R41). -/
def saveRam (s : State) : List Byte := (List.range (s.config.nRamBanks * ramBankSize)).map s.ram.read

/-- A collaborator restores saved contents: only before the first transaction, and only whole contents (R120, R126, D22). -/
def restoreRam (bytes : List Byte) (s : State) : Option State :=
  if s.last = none ∧ bytes.length = s.config.nRamBanks * ramBankSize then some (s.setRam (Memory.ofBytes 0 bytes))
  else none

end Sys2Proof.Machine
end

