-- ==== Sys2Proof/Machine/Step.lean ====
section
/-! DEFINITION. One step is one transaction of the master (R16, R17, R46). -/

namespace Sys2Proof.Machine

/-- A step. With no transaction presented nothing happens (R115). A transaction is taken from the master; under an image
that is empty or misaligned, or without a RAM bank, no block exists to take it (R122, R123); else it is decoded under the
strap and carried out. -/
def step (s : State) : Host.Outcome State Fault Refusal :=
  match takeTransaction s with
  | none => .next s
  | some (tx, t) => if buildable t.config then exec (decodeTransaction t.config.family tx) t else refuseConfiguration t

/-- The state in which the very next step carries out the transaction of the word `w`, on a cartridge strapped as the word
says (log entry 6). -/
def State.withFetchWord (s : State) (_nbits w : Nat) : State := presentWord (BitVec.ofNat 28 w) s

end Sys2Proof.Machine
end

