-- ==== Sys2Proof/Machine/Ports.lean ====
section
/-! DEFINITION. The output ports of R52 as read off the response of a transaction. A port that carries no meaning in a
transaction has the value `none`: the spec gives it none. The numeric codes are the spec's own (D3). -/

namespace Sys2Proof.Machine

/-- The result code (R112). -/
def Result.code : Result → BitVec 2
  | .ok => 0#2
  | .invalidAddress => 1#2
  | .unimplementedFamily => 2#2

/-- `rsp_err` -/
def Response.rspErr (r : Response) : BitVec 2 := r.result.code

/-- `rsp_rdata`, meaningful only for a read with `rsp_err = 0`. -/
def Response.rspRdata (r : Response) : Option Byte := r.rdata

/-- `rom_bank`: the index after wrap, 9 bits. -/
def Response.romBank (r : Response) : Option (BitVec 9) :=
  match r.port with
  | .rom b _ => some (BitVec.ofNat 9 b)
  | _ => none

/-- `rom_off`, 14 bits. -/
def Response.romOff (r : Response) : Option (BitVec 14) :=
  match r.port with
  | .rom _ o => some (BitVec.ofNat 14 o)
  | _ => none

/-- `ram_cs`: the RAM array is addressed. -/
def Response.ramCs (r : Response) : Bool :=
  match r.port with
  | .ram _ _ _ => true
  | _ => false

/-- `ram_bank`: the index after wrap; 4 bits as long as there are at most 16 banks, wider otherwise. -/
def Response.ramBank (r : Response) : Option Nat :=
  match r.port with
  | .ram b _ _ => some b
  | _ => none

/-- `ram_off`, 13 bits. -/
def Response.ramOff (r : Response) : Option (BitVec 13) :=
  match r.port with
  | .ram _ o _ => some (BitVec.ofNat 13 o)
  | _ => none

/-- `ram_we`: store `ram_d`. -/
def Response.ramWe (r : Response) : Bool :=
  match r.port with
  | .ram _ _ (some _) => true
  | _ => false

/-- `ram_d` -/
def Response.ramD (r : Response) : Option Byte :=
  match r.port with
  | .ram _ _ d => d
  | _ => none

/-- `clk_idx`: a clock register index (R93). -/
def Response.clkIdx (r : Response) : Option (BitVec 4) :=
  match r.port with
  | .clock i _ => some i
  | _ => none

/-- `clk_rd` -/
def Response.clkRd (r : Response) : Bool :=
  match r.port with
  | .clock _ none => true
  | _ => false

/-- `clk_wr` -/
def Response.clkWr (r : Response) : Bool :=
  match r.port with
  | .clock _ (some _) => true
  | _ => false

/-- `clk_d` -/
def Response.clkD (r : Response) : Option Byte :=
  match r.port with
  | .clock _ d => d
  | _ => none

end Sys2Proof.Machine
end

