-- ==== Sys2Proof/Machine/Sequences.lean ====
section
/-! DEFINITION. The composite sequences of R58: shorthands of the spec for lists of transactions. They are no operations of
the block; a master issues their transactions one by one. -/

namespace Sys2Proof.Machine

/-- A write, in the notation `WR a, v` (R51). -/
def wr (a : Addr) (v : Byte) : Transaction := ⟨.write, a, v⟩

/-- A read, in the notation `RD a` (R51). -/
def rd (a : Addr) : Transaction := ⟨.read, a, 0#8⟩

/-- `RAMON` (Families 1, 2, 3, 5) -/
def seqRamOn : List Transaction := [wr 0x0000#16 0x0A#8]

/-- `RAMOFF` (Families 1, 2, 3, 5) -/
def seqRamOff : List Transaction := [wr 0x0000#16 0x00#8]

/-- `ROMBANK n` of Family1, n in 1..0x1F -/
def seqRomBankF1 (n : BitVec 5) : List Transaction := [wr 0x2000#16 (n.setWidth 8)]

/-- `ROMBANK7 n` of Family1 in mode 0 -/
def seqRomBank7 (n : BitVec 7) : List Transaction :=
  [wr 0x2000#16 ((n.extractLsb' 0 5).setWidth 8), wr 0x4000#16 ((n.extractLsb' 5 2).setWidth 8)]

/-- `ROMBANK n` of Family2, n in 1..0xF -/
def seqRomBankF2 (n : BitVec 4) : List Transaction := [wr 0x2100#16 (n.setWidth 8)]

/-- `ROMBANK n` of Family3, n in 1..0x7F -/
def seqRomBankF3 (n : BitVec 7) : List Transaction := [wr 0x2000#16 (n.setWidth 8)]

/-- `ROMBANK9 n` of Family5 -/
def seqRomBank9 (n : BitVec 9) : List Transaction :=
  [wr 0x2000#16 (n.extractLsb' 0 8), wr 0x3000#16 ((n.extractLsb' 8 1).setWidth 8)]

/-- `RAMBANK n` of Family1 in mode 1, n in 0..3 -/
def seqRamBankF1 (n : BitVec 2) : List Transaction := [wr 0x4000#16 (n.setWidth 8)]

/-- `RAMBANK n` of Family3, n in 0..7 -/
def seqRamBankF3 (n : BitVec 3) : List Transaction := [wr 0x4000#16 (n.setWidth 8)]

/-- `RAMBANK n` of Family5, n in 0..0xF -/
def seqRamBankF5 (n : BitVec 4) : List Transaction := [wr 0x4000#16 (n.setWidth 8)]

end Sys2Proof.Machine
end

