-- ==== Sys2Proof/Safety.lean ====
section
/-! DEFINITION. The terms claims are stated in: the invariant of the reachable states (R32), what a well-routed transaction
and an unchanged block are, and the relation between the two bindings of Family1's secondary register (R79). -/

namespace Sys2Proof.Machine

/-- What R32 (a), (b), (c) say of the registers of a reachable state, with R21 to R23 for the fields a family has no use
for, which keep their load values. -/
def regsInv (c : Config) (r : Regs) : Bool :=
  match c.family with
  | none => decide (r = Regs.atLoad c)
  | some .noMapper => decide (r = Regs.atLoad c)
  | some .family1 =>
    match c.secBinding with
    | .atAccess => decide (r.bank1.toNat % 32 ≠ 0 ∧ r.bank1.toNat < 32 ∧ r.ramsel = 0#4)
    | .atWrite => decide (r.bank1.toNat % 32 ≠ 0 ∧ r.bank1.toNat < 128 ∧ r.sec = 0#2 ∧ r.ramsel.toNat < 4)
  | some .family2 =>
    decide (r.bank1.toNat ≠ 0 ∧ r.bank1.toNat < 16 ∧ r.sec = 0#2 ∧ r.mode = c.modeReset ∧ r.ramsel = 0#4)
  | some .family3 => decide (r.bank1.toNat ≠ 0 ∧ r.bank1.toNat < 128 ∧ r.sec = 0#2 ∧ r.mode = c.modeReset)
  | some .family5 => decide (r.sec = 0#2 ∧ r.mode = c.modeReset)
  | some .family6 => decide (r = Regs.atLoad c)
  | some .family7 => decide (r = Regs.atLoad c)

/-- The RAM and the image are canonical and lie within their banks (R28, R29). -/
abbrev memInv (s : State) : Prop :=
  s.ram.wf ∧ s.ram.below (s.config.nRamBanks * ramBankSize) ∧ s.config.image.wf ∧ s.config.image.below s.config.imageLen

/-- The invariant of the reachable states (R32). -/
abbrev Inv (s : State) : Prop := regsInv s.config s.regs = true ∧ memInv s

/-- The three windows of R35, as ranges of numbers: program window, RAM window. -/
abbrev inProgramWindow (a : Addr) : Prop := a.toNat ≤ 0x7FFF

/-- The RAM window `0xA000-0xBFFF`. -/
abbrev inRamWindow (a : Addr) : Prop := 0xA000 ≤ a.toNat ∧ a.toNat ≤ 0xBFFF

/-- The two invalid ranges (R107). -/
abbrev inInvalidRange (a : Addr) : Prop := (0x8000 ≤ a.toNat ∧ a.toNat ≤ 0x9FFF) ∨ 0xC000 ≤ a.toNat

/-- A transaction that a master may issue (R127(e)): its address is in one of the three windows. -/
abbrev wellRouted (tx : Transaction) : Prop := inProgramWindow tx.addr ∨ inRamWindow tx.addr

/-- The block is unchanged: its parameters, its registers, its RAM (R16). -/
abbrev sameBlock (s t : State) : Prop := t.config = s.config ∧ t.regs = s.regs ∧ t.ram = s.ram

/-- What a transaction does not touch beside the block: the transactions to come and the clock inputs. -/
abbrev sameInputs (s t : State) : Prop := t.master = s.master ∧ t.clkIn = s.clkIn ∧ t.draws = s.draws

/-- The response to a write that ends `OK` and addresses no array. -/
def wroteNothing : Response := ⟨.ok, none, .idle⟩

/-- A run of `n` steps. -/
def runSteps (n : Nat) (s : State) : Host.Outcome State Fault Refusal := Host.Core.run Sys2Proof.core n s

/-- A run that issues a list of transactions in order (R46, R58). -/
def issueAll (txs : List Transaction) (s : State) : Host.Outcome State Fault Refusal :=
  runSteps txs.length { s with master := txs }

/-- A safe run of a transaction: it ends `OK`. -/
def endsOk (o : Host.Outcome State Fault Refusal) : Bool :=
  match o with
  | .next t =>
    match t.last with
    | some r => decide (r.result = .ok)
    | none => true
  | .fault _ => false
  | .refused _ => false

/-- The response to a transaction issued in a state. -/
def responseTo (tx : Transaction) (s : State) : Option Response :=
  match issueAll [tx] s with
  | .next t => t.last
  | .fault _ => none
  | .refused _ => none

/-- A transaction issued in a state, then a read of the upper window at `a`, gives the byte of the program bank that the
selector names after the modulo wrap (R36). -/
def upperReadAfter (tx : Transaction) (a : Addr) (sel : Nat) (s : State) : Prop :=
  ∃ t, issueAll [tx, rd a] s = .next t ∧
    t.last = some ⟨.ok, some (romRead s.config (sel % s.config.nRomBanks) (a.toNat - 0x4000)),
      .rom (sel % s.config.nRomBanks) (a.toNat - 0x4000)⟩

/-- The two bindings hold the same selectors (R79): `s` runs under `AT_ACCESS`, `t` under `AT_WRITE`, and the secondary bits
stand where the mode in force uses them. -/
abbrev bindingsMatch (s t : State) : Prop :=
  s.config.family = some .family1 ∧ s.config.secBinding = .atAccess ∧
  t.config = { s.config with secBinding := .atWrite } ∧
  t.regs.ramEn = s.regs.ramEn ∧ t.regs.mode = s.regs.mode ∧
  s.regs.bank1.toNat < 32 ∧ t.regs.bank1.toNat < 128 ∧ t.regs.ramsel.toNat < 4 ∧
  t.regs.bank1.toNat % 32 = s.regs.bank1.toNat ∧
  t.regs.bank1.toNat / 32 = (if s.regs.mode then 0 else s.regs.sec.toNat) ∧
  t.regs.ramsel.toNat = (if s.regs.mode then s.regs.sec.toNat else 0) ∧
  t.ram = s.ram ∧ t.master = s.master ∧ t.clkIn = s.clkIn ∧ t.draws = s.draws

end Sys2Proof.Machine
end

