-- ==== Sys2Proof/Certificates/Slice0/Obligations.lean ====
section
/-! DEFINITION. The statements for the provers. A docstring names the rule or section of spec/ a statement rests on; a
statement that rests on one of the spec's own decisions (D1 to D26) or on a choice of the model says so and names the log
entry. -/

open Sys2Proof Sys2Proof.Machine

/-! ## Encoding -/

/-- Decoding the word of a well-formed operation gives the operation and the strap back, every operand included. The word
`T` is the spec's own packing (decision D2, log entry 8). -/
def Obligations.DecodeOfEncodeIsIdentity : Prop :=
  ∀ (nbits : Nat) (strap : Option Family) (i : Instr), WellFormed strap i = true →
    decodeTableWord nbits (encode strap i).toNat = some i ∧ wordStrap (encode strap i) = strap

/-- Encoding what a word decodes to gives the word back, for every word whose data bits are 0 if it is a read (R53,
decision D2, log entry 8). -/
def Obligations.EncodeOfDecodeIsIdentity : Prop :=
  ∀ t : BitVec 28, ((wordTransaction t).dir = .read → (wordTransaction t).data = 0#8) →
    encode (wordStrap t) (decodeWord t) = t

/-- What a transaction decodes to is well formed under the strap it was decoded with. -/
def Obligations.DecodedOperationIsWellFormed : Prop :=
  ∀ (strap : Option Family) (tx : Transaction), (tx.dir = .read → tx.data = 0#8) →
    WellFormed strap (decodeTransaction strap tx) = true ∧ (decodeTransaction strap tx).transaction = tx

/-- R59 [derived in the spec], R56(e): for a legal family exactly one row of the 42 matches a word, the row of the
operation it decodes to; under code 4 the word decodes to `CFG.ILLEGAL`, whose row matches it. -/
def Obligations.ExactlyOneTableRowMatches : Prop :=
  (∀ t : BitVec 28, wordStrap t ≠ none → opcodeRows.filter (fun r => r.hits t) = [(decodeWord t).row]) ∧
  (∀ t : BitVec 28, wordStrap t = none →
    decodeWord t = .cfgIllegal (wordTransaction t).dir (wordTransaction t).addr (wordTransaction t).data ∧
      (decodeWord t).row.hits t = true)

/-- R54: the operation map by address ranges, and by address bit 8 under Family2. -/
def Obligations.DecodeFollowsOperationMap : Prop :=
  ∀ (f : Family) (a : Addr) (v : Byte),
    (a.toNat ≤ 0x3FFF → decode (some f) .read a v = .rdRom0 a) ∧
    (0x4000 ≤ a.toNat → a.toNat ≤ 0x7FFF → decode (some f) .read a v = .rdRomX a) ∧
    (0x8000 ≤ a.toNat → a.toNat ≤ 0x9FFF →
      decode (some f) .read a v = .rdInv8 a ∧ decode (some f) .write a v = .wrInv8 a v) ∧
    (0xC000 ≤ a.toNat → decode (some f) .read a v = .rdInvC a ∧ decode (some f) .write a v = .wrInvC a v) ∧
    (0xA000 ≤ a.toNat → a.toNat ≤ 0xBFFF →
      decode (some .noMapper) .read a v = .rdRamNm a ∧ decode (some .noMapper) .write a v = .wrNmRam a v ∧
      decode (some .family1) .read a v = .rdRamF1 a ∧ decode (some .family1) .write a v = .wrF1Ram a v ∧
      decode (some .family2) .read a v = .rdRamF2 a ∧ decode (some .family2) .write a v = .wrF2Ram a v ∧
      decode (some .family3) .read a v = .rdRamF3 a ∧ decode (some .family3) .write a v = .wrF3Ram a v ∧
      decode (some .family5) .read a v = .rdRamF5 a ∧ decode (some .family5) .write a v = .wrF5Ram a v ∧
      decode (some .family6) .read a v = .rdRamF6 a ∧ decode (some .family6) .write a v = .wrF6Ram a v ∧
      decode (some .family7) .read a v = .rdRamF7 a ∧ decode (some .family7) .write a v = .wrF7Ram a v) ∧
    (a.toNat ≤ 0x7FFF →
      decode (some .noMapper) .write a v = .wrNmRom a v ∧ decode (some .family6) .write a v = .wrF6Reg a v ∧
      decode (some .family7) .write a v = .wrF7Reg a v) ∧
    (a.toNat ≤ 0x1FFF →
      decode (some .family1) .write a v = .wrF1RamEn a v ∧ decode (some .family3) .write a v = .wrF3RamEn a v ∧
      decode (some .family5) .write a v = .wrF5RamEn a v ∧
      (a.toNat / 256 % 2 = 0 → decode (some .family2) .write a v = .wrF2RamEn a v) ∧
      (a.toNat / 256 % 2 = 1 → decode (some .family2) .write a v = .wrF2NoneA a v)) ∧
    (0x2000 ≤ a.toNat → a.toNat ≤ 0x3FFF →
      decode (some .family1) .write a v = .wrF1BankLo a v ∧ decode (some .family3) .write a v = .wrF3Bank a v ∧
      (a.toNat ≤ 0x2FFF → decode (some .family5) .write a v = .wrF5BankLo a v) ∧
      (0x3000 ≤ a.toNat → decode (some .family5) .write a v = .wrF5BankHi a v) ∧
      (a.toNat / 256 % 2 = 0 → decode (some .family2) .write a v = .wrF2NoneB a v) ∧
      (a.toNat / 256 % 2 = 1 → decode (some .family2) .write a v = .wrF2Bank a v)) ∧
    (0x4000 ≤ a.toNat → a.toNat ≤ 0x7FFF → decode (some .family2) .write a v = .wrF2NoneC a v) ∧
    (0x4000 ≤ a.toNat → a.toNat ≤ 0x5FFF →
      decode (some .family1) .write a v = .wrF1Sec a v ∧ decode (some .family3) .write a v = .wrF3RamRtc a v ∧
      decode (some .family5) .write a v = .wrF5RamB a v) ∧
    (0x6000 ≤ a.toNat → a.toNat ≤ 0x7FFF →
      decode (some .family1) .write a v = .wrF1Mode a v ∧ decode (some .family3) .write a v = .wrF3Latch a v ∧
      decode (some .family5) .write a v = .wrF5None a v)

/-- Words of 95_test_vectors.md section 3.1, one or more per family, decode to the operations listed there. -/
def Obligations.ListedWordsDecode : Prop :=
  decodeTableWord 28 0x23FFF00 = some (.rdRom0 0x3FFF#16) ∧
  decodeTableWord 28 0x29FFF00 = some (.rdInv8 0x9FFF#16) ∧
  decodeTableWord 28 0x17FFF01 = some (.wrNmRom 0x7FFF#16 0x01#8) ∧
  decodeTableWord 28 0x3200005 = some (.wrF1BankLo 0x2000#16 0x05#8) ∧
  decodeTableWord 28 0x51EFF0A = some (.wrF2RamEn 0x1EFF#16 0x0A#8) ∧
  decodeTableWord 28 0x53FFF03 = some (.wrF2Bank 0x3FFF#16 0x03#8) ∧
  decodeTableWord 28 0x7400008 = some (.wrF3RamRtc 0x4000#16 0x08#8) ∧
  decodeTableWord 28 0xB3FFF01 = some (.wrF5BankHi 0x3FFF#16 0x01#8) ∧
  decodeTableWord 28 0xDA00011 = some (.wrF6Ram 0xA000#16 0x11#8) ∧
  decodeTableWord 28 0xFC00000 = some (.wrInvC 0xC000#16 0x00#8)

/-! ## The address map and the step -/

/-- R35: the window of an address by ranges of numbers, and an access to an invalid window ends with `InvalidAddress`, a
read and a write alike. -/
def Obligations.WindowOfAddress : Prop :=
  (∀ a : Addr,
    (window a = .lower ↔ a.toNat ≤ 0x3FFF) ∧
    (window a = .upper ↔ 0x4000 ≤ a.toNat ∧ a.toNat ≤ 0x7FFF) ∧
    (window a = .invalid8 ↔ 0x8000 ≤ a.toNat ∧ a.toNat ≤ 0x9FFF) ∧
    (window a = .ramWin ↔ 0xA000 ≤ a.toNat ∧ a.toNat ≤ 0xBFFF) ∧
    (window a = .invalidC ↔ 0xC000 ≤ a.toNat)) ∧
  (∀ (s : State) (tx : Transaction) (txs : List Transaction), legal s.config = true → s.master = tx :: txs →
    window tx.addr = .invalid8 ∨ window tx.addr = .invalidC →
    ∃ t r, step s = .next t ∧ t.last = some r ∧ r.result = .invalidAddress)

/-- A step on a legal image takes the master's next transaction and carries out the operation it decodes to under the
strap. That transactions stand in a list of the state is the model's choice (log entry 6). -/
def Obligations.StepRunsDecodedTransaction : Prop :=
  ∀ (s : State) (tx : Transaction) (txs : List Transaction), buildable s.config = true → s.master = tx :: txs →
    step s = exec (decode s.config.family tx.dir tx.addr tx.data) { s with master := txs }

/-- R115: with no transaction presented, nothing happens, however many steps are taken. -/
def Obligations.NothingHappensBetweenTransactions : Prop :=
  ∀ (s : State) (n : Nat), s.master = [] → runSteps n s = .next s

/-- R123, decision D26 (log entry 9): under an illegal configuration no transaction has a meaning; the refusal is the
model's. -/
def Obligations.IllegalConfigurationIsRefused : Prop :=
  (∀ (s : State) (tx : Transaction) (txs : List Transaction), legal s.config = false → s.master = tx :: txs →
    step s = .refused .illegalConfiguration) ∧
  (∀ (d : Dir) (a : Addr) (v : Byte) (s : State), exec (.cfgIllegal d a v) s = .refused .illegalConfiguration)

/-- Every operation but `CFG.ILLEGAL` answers a next state, whatever the state and the operands, with a response, and
leaves the parameters and the transactions to come alone; so a legal instance always completes a step (R51, R112; an
error is a next state with a result code: decision D3, log entry 4). -/
def Obligations.EveryOperationAnswers : Prop :=
  (∀ (i : Instr) (s : State), (∀ d a v, i ≠ .cfgIllegal d a v) →
    ∃ t, exec i s = .next t ∧ t.config = s.config ∧ t.master = s.master ∧ t.last.isSome = true) ∧
  (∀ s : State, legal s.config = true → ∃ t, step s = .next t)

/-! ## The read path and the mux -/

/-- R37: the lower window reads bank 0 of the image at the address itself, whatever the registers and the family; nothing
else changes. -/
def Obligations.LowerWindowReadsBankZero : Prop :=
  ∀ (s : State) (a : Addr), a.toNat ≤ 0x3FFF →
    exec (.rdRom0 a) s = .next { s with last := some ⟨.ok, some (s.config.image.read a.toNat), .rom 0 a.toNat⟩ }

/-- R61, R36 (decision D9: the wrap comes at the read, log entry 3): the upper window reads the selector's bank modulo the
number of banks, at the address less `0x4000`; nothing else changes. -/
def Obligations.UpperWindowReadsWrappedBank : Prop :=
  ∀ (s : State) (a : Addr) (b : Nat), 0x4000 ≤ a.toNat → a.toNat ≤ 0x7FFF →
    b = (romxSel s.config s.regs).toNat % (s.config.imageLen / 0x4000) →
    exec (.rdRomX a) s =
      .next { s with
        last := some ⟨.ok, some (s.config.image.read (b * 0x4000 + (a.toNat - 0x4000))), .rom b (a.toNat - 0x4000)⟩ }

/-- R38 (decision D8, log entry 3): the upper-window selector of every family, as a number. -/
def Obligations.UpperSelectorTable : Prop :=
  ∀ (c : Config) (r : Regs),
    (c.family = some .noMapper ∨ c.family = some .family5 ∨ c.family = some .family6 ∨ c.family = some .family7 →
      (romxSel c r).toNat = r.bank1.toNat) ∧
    (c.family = some .family1 → c.secBinding = .atAccess → r.mode = false →
      (romxSel c r).toNat = 32 * r.sec.toNat + r.bank1.toNat % 32) ∧
    (c.family = some .family1 → c.secBinding = .atAccess → r.mode = true → (romxSel c r).toNat = r.bank1.toNat % 32) ∧
    (c.family = some .family1 → c.secBinding = .atWrite → (romxSel c r).toNat = r.bank1.toNat % 128) ∧
    (c.family = some .family2 → (romxSel c r).toNat = r.bank1.toNat % 16) ∧
    (c.family = some .family3 → (romxSel c r).toNat = r.bank1.toNat % 128)

/-- R39 (decisions D5, D8, log entry 3): the RAM bank of every family, as a number. -/
def Obligations.RamBankTable : Prop :=
  ∀ (c : Config) (r : Regs),
    (c.family = some .noMapper ∨ c.family = some .family2 ∨ c.family = some .family6 ∨ c.family = some .family7 →
      ramIdx c r = 0) ∧
    (c.family = some .family1 → c.secBinding = .atAccess → r.mode = false → ramIdx c r = 0) ∧
    (c.family = some .family1 → c.secBinding = .atAccess → r.mode = true → ramIdx c r = r.sec.toNat % c.nRamBanks) ∧
    (c.family = some .family1 → c.secBinding = .atWrite → ramIdx c r = r.ramsel.toNat % 4 % c.nRamBanks) ∧
    (c.family = some .family3 ∨ c.family = some .family5 → ramIdx c r = r.ramsel.toNat % c.nRamBanks)

/-- R40 (decisions D12, D13, log entries 10 and 11): the target of a RAM-window access. -/
def Obligations.RamTargetTable : Prop :=
  ∀ (c : Config) (r : Regs) (a : Addr), inRamWindow a →
    (c.family = some .noMapper ∨ c.family = some .family1 ∨ c.family = some .family5 ∨ c.family = some .family6 →
      ramTarget c r a = .ram (ramIdx c r) (a.toNat - 0xA000)) ∧
    (c.family = some .family2 → a.toNat ≤ 0xA1FF → ramTarget c r a = .ram 0 (a.toNat - 0xA000)) ∧
    (c.family = some .family2 → 0xA200 ≤ a.toNat → ramTarget c r a = .nothing) ∧
    (c.family = some .family3 → r.ramsel.toNat ≤ 7 → ramTarget c r a = .ram (ramIdx c r) (a.toNat - 0xA000)) ∧
    (c.family = some .family3 → 8 ≤ r.ramsel.toNat → r.ramsel.toNat ≤ 12 → ramTarget c r a = .clock r.ramsel) ∧
    (c.family = some .family3 → 13 ≤ r.ramsel.toNat → ramTarget c r a = .nothing)

/-- R32(d) [derived in the spec], R6: every bank index is below its bank count, every linear address is inside its
array, and no family reaches a program bank above 511. The wrap of the RAM index is decision D5 (log entry 3). -/
def Obligations.BankIndicesAreInRange : Prop :=
  ∀ (c : Config) (r : Regs) (a : Addr), legal c = true →
    romxIdx c r < c.nRomBanks ∧ romxIdx c r ≤ 511 ∧ ramIdx c r < c.nRamBanks ∧
    romxIdx c r * 0x4000 + romOffset a < c.imageLen ∧
    (∀ b o, ramTarget c r a = .ram b o → b * 0x2000 + o < c.nRamBanks * 0x2000)

/-- C1, C2, R32(a): under Families 1, 2 and 3 the upper-window selector of a reachable state is never 0. How Family1
forms its selector is decision D8 (log entry 3). -/
def Obligations.SelectorIsNeverZero : Prop :=
  ∀ (s : State) (f : Family), s.config.family = some f → f = .family1 ∨ f = .family2 ∨ f = .family3 →
    Inv s → (romxSel s.config s.regs).toNat ≠ 0

/-! ## Errors -/

/-- R63, R64, R68, R69: a read or a write in `0x8000-0x9FFF` or `0xC000-0xFFFF` ends with `InvalidAddress` under every
family, returns no byte and changes nothing. -/
def Obligations.InvalidAccessRaises : Prop :=
  (∀ (s : State) (a : Addr) (v : Byte),
    exec (.rdInv8 a) s = .next { s with last := some ⟨.invalidAddress, none, .idle⟩ } ∧
    exec (.rdInvC a) s = .next { s with last := some ⟨.invalidAddress, none, .idle⟩ } ∧
    exec (.wrInv8 a v) s = .next { s with last := some ⟨.invalidAddress, none, .idle⟩ } ∧
    exec (.wrInvC a v) s = .next { s with last := some ⟨.invalidAddress, none, .idle⟩ }) ∧
  (∀ (s : State) (tx : Transaction) (txs : List Transaction), legal s.config = true → s.master = tx :: txs →
    inInvalidRange tx.addr →
    step s = .next { s with master := txs, last := some ⟨.invalidAddress, none, .idle⟩ })

/-- R107 (code 1: decision D3), R113 (decision D18): `InvalidAddress` is raised in the two invalid ranges, also under
Family6 and Family7, and by nothing else. -/
def Obligations.InvalidAddressExactlyOutsideWindows : Prop :=
  ∀ (s t : State) (tx : Transaction) (txs : List Transaction) (r : Response),
    legal s.config = true → s.master = tx :: txs → step s = .next t → t.last = some r →
    (r.result = .invalidAddress ↔ inInvalidRange tx.addr) ∧ (r.rspErr = 1#2 ↔ inInvalidRange tx.addr)

/-- R108 (decisions D3, D16, D17): `UnimplementedFamily` is raised by writes into the program window under Family6 and
Family7 and into the RAM window under Family7, and by nothing else. -/
def Obligations.UnimplementedFamilyExactlyThere : Prop :=
  ∀ (s t : State) (tx : Transaction) (txs : List Transaction) (r : Response),
    legal s.config = true → s.master = tx :: txs → step s = .next t → t.last = some r →
    (r.result = .unimplementedFamily ↔
      tx.dir = .write ∧
        ((s.config.family = some .family6 ∧ inProgramWindow tx.addr) ∨
         (s.config.family = some .family7 ∧ (inProgramWindow tx.addr ∨ inRamWindow tx.addr)))) ∧
    (r.rspErr = 2#2 ↔ r.result = .unimplementedFamily)

/-- R111, R127(e) (a write where the family has no register: decisions D11, D13, D15, D19, log entry 19; Family6 and
Family7: D16, D17, log entry 12): a transaction inside the three windows ends `OK`, unless it is a write under Family7
or a register write under Family6. -/
def Obligations.NormalProtocolEndsOk : Prop :=
  ∀ (s : State) (tx : Transaction) (txs : List Transaction), legal s.config = true → s.master = tx :: txs →
    wellRouted tx → (tx.dir = .write → s.config.family ≠ some .family7) →
    (tx.dir = .write → inProgramWindow tx.addr → s.config.family ≠ some .family6) →
    ∃ t r, step s = .next t ∧ t.last = some r ∧ r.result = .ok ∧ (r.rdata.isSome = true ↔ tx.dir = .read)

/-- R112 (decision D3, log entry 4): a response carries a byte exactly when it answers a read with `OK`, code 3 is never
produced, and an error changes nothing but the response. -/
def Obligations.ResponseShape : Prop :=
  ∀ (s t : State) (tx : Transaction) (txs : List Transaction),
    legal s.config = true → s.master = tx :: txs → step s = .next t →
    ∃ r, t.last = some r ∧ (r.rdata.isSome = true ↔ tx.dir = .read ∧ r.result = .ok) ∧ r.rspErr ≠ 3#2 ∧
      (r.result ≠ .ok → t = { s with master := txs, last := some ⟨r.result, none, .idle⟩ })

/-- R114: after an error the block is as it was before the failing transaction and takes whatever comes next as if the
failing one had not been issued; repeating the failing transaction fails in the same way. -/
def Obligations.ErrorsDoNotLatch : Prop :=
  ∀ (s t : State) (tx : Transaction) (r : Response), legal s.config = true →
    issueAll [tx] s = .next t → t.last = some r → r.result ≠ .ok →
    sameBlock s t ∧ responseTo tx t = some r ∧
      ∀ (tx' : Transaction) (txs : List Transaction), issueAll (tx' :: txs) t = issueAll (tx' :: txs) s

/-! ## Reads -/

/-- R65: no read changes a register, a RAM cell or a parameter, and a read answers the same before and after another read
(so twice, and in either order), except a clock read. -/
def Obligations.ReadsChangeNothing : Prop :=
  ∀ (s t : State) (tx tx' : Transaction), legal s.config = true → tx.dir = .read → tx'.dir = .read →
    issueAll [tx] s = .next t →
    sameBlock s t ∧
      ((∀ r, responseTo tx' s = some r → r.clkRd = false) → responseTo tx' t = responseTo tx' s)

/-- R60 and the source's first property (S1): the lower window reads the same before and after any run, under every
family (Family6 and Family7: decision D16, log entry 12). -/
def Obligations.LowerWindowNeverMoves : Prop :=
  ∀ (n : Nat) (s t : State) (a : Addr), legal s.config = true → a.toNat ≤ 0x3FFF → runSteps n s = .next t →
    responseTo (rd a) t = responseTo (rd a) s

/-! ## Register writes -/

/-- R73, R74, R76: the Family1 writes of `ram_en`, `bank1[4:0]` (0 becomes 1, the bits above kept) and `mode`; nothing else
changes. -/
def Obligations.Family1RegisterWrites : Prop :=
  ∀ (s : State) (a : Addr) (v : Byte),
    exec (.wrF1RamEn a v) s =
      .next { s with regs := { s.regs with ramEn := decide (v.toNat % 16 = 10) }, last := some wroteNothing } ∧
    (∃ b : BitVec 9,
      b.toNat = s.regs.bank1.toNat / 32 * 32 + (if v.toNat % 32 = 0 then 1 else v.toNat % 32) ∧
      exec (.wrF1BankLo a v) s = .next { s with regs := { s.regs with bank1 := b }, last := some wroteNothing }) ∧
    exec (.wrF1Mode a v) s =
      .next { s with regs := { s.regs with mode := decide (v.toNat % 2 = 1) }, last := some wroteNothing }

/-- R75 (decisions D7, D8, D20, log entry 3): the Family1 secondary register under both bindings; nothing else
changes. -/
def Obligations.Family1SecondaryWrite : Prop :=
  ∀ (s : State) (a : Addr) (v : Byte),
    (s.config.secBinding = .atAccess → ∃ x : BitVec 2, x.toNat = v.toNat % 4 ∧
      exec (.wrF1Sec a v) s = .next { s with regs := { s.regs with sec := x }, last := some wroteNothing }) ∧
    (s.config.secBinding = .atWrite → s.regs.mode = false → ∃ b : BitVec 9,
      b.toNat = s.regs.bank1.toNat / 128 * 128 + 32 * (v.toNat % 4) + s.regs.bank1.toNat % 32 ∧
      exec (.wrF1Sec a v) s = .next { s with regs := { s.regs with bank1 := b }, last := some wroteNothing }) ∧
    (s.config.secBinding = .atWrite → s.regs.mode = true → ∃ m : BitVec 4,
      m.toNat = s.regs.ramsel.toNat / 4 * 4 + v.toNat % 4 ∧
      exec (.wrF1Sec a v) s = .next { s with regs := { s.regs with ramsel := m }, last := some wroteNothing })

/-- R80 (decision D11), R81: the Family2 writes of `ram_en` and `bank1[3:0]` (0 becomes 1); nothing else changes. -/
def Obligations.Family2RegisterWrites : Prop :=
  ∀ (s : State) (a : Addr) (v : Byte),
    exec (.wrF2RamEn a v) s =
      .next { s with regs := { s.regs with ramEn := decide (v.toNat % 16 = 10) }, last := some wroteNothing } ∧
    (∃ b : BitVec 9,
      b.toNat = s.regs.bank1.toNat / 16 * 16 + (if v.toNat % 16 = 0 then 1 else v.toNat % 16) ∧
      exec (.wrF2Bank a v) s = .next { s with regs := { s.regs with bank1 := b }, last := some wroteNothing })

/-- R87, R88: the Family3 writes of `ram_en` and `bank1[6:0]` (0 becomes 1); nothing else changes. -/
def Obligations.Family3EnableAndBankWrites : Prop :=
  ∀ (s : State) (a : Addr) (v : Byte),
    exec (.wrF3RamEn a v) s =
      .next { s with regs := { s.regs with ramEn := decide (v.toNat % 16 = 10) }, last := some wroteNothing } ∧
    (∃ b : BitVec 9,
      b.toNat = s.regs.bank1.toNat / 128 * 128 + (if v.toNat % 128 = 0 then 1 else v.toNat % 128) ∧
      exec (.wrF3Bank a v) s = .next { s with regs := { s.regs with bank1 := b }, last := some wroteNothing })

/-- R95, R97: the Family5 writes of `bank1[7:0]` (no remap, bit 8 kept) and `ramsel`; nothing else changes. -/
def Obligations.Family5BankAndRamWrites : Prop :=
  ∀ (s : State) (a : Addr) (v : Byte),
    (∃ b : BitVec 9, b.toNat = s.regs.bank1.toNat / 256 * 256 + v.toNat ∧
      exec (.wrF5BankLo a v) s = .next { s with regs := { s.regs with bank1 := b }, last := some wroteNothing }) ∧
    (∃ m : BitVec 4, m.toNat = v.toNat % 16 ∧
      exec (.wrF5RamB a v) s = .next { s with regs := { s.regs with ramsel := m }, last := some wroteNothing })

/-- R89 (D13), R94 (D15), R96 (D20): the register writes that rest on decisions of the spec (log entries 11 to 13). -/
def Obligations.DecidedRegisterWrites : Prop :=
  ∀ (s : State) (a : Addr) (v : Byte),
    (∃ m : BitVec 4, m.toNat = v.toNat % 16 ∧
      exec (.wrF3RamRtc a v) s = .next { s with regs := { s.regs with ramsel := m }, last := some wroteNothing }) ∧
    exec (.wrF5RamEn a v) s =
      .next { s with regs := { s.regs with ramEn := decide (v.toNat % 16 = 10) }, last := some wroteNothing } ∧
    (∃ b : BitVec 9, b.toNat = 256 * (v.toNat % 2) + s.regs.bank1.toNat % 256 ∧
      exec (.wrF5BankHi a v) s = .next { s with regs := { s.regs with bank1 := b }, last := some wroteNothing })

/-- R56(c), R70 (D19), R82 to R84 (D11), R90 (D13), R98 (D15): a write into the program window at an address where the
family has no register ends `OK` and changes nothing, as an operation and as a step from its address range. -/
def Obligations.WritesToNoRegisterDoNothing : Prop :=
  (∀ (s : State) (a : Addr) (v : Byte),
    exec (.wrNmRom a v) s = .next { s with last := some wroteNothing } ∧
    exec (.wrF2NoneA a v) s = .next { s with last := some wroteNothing } ∧
    exec (.wrF2NoneB a v) s = .next { s with last := some wroteNothing } ∧
    exec (.wrF2NoneC a v) s = .next { s with last := some wroteNothing } ∧
    exec (.wrF3Latch a v) s = .next { s with last := some wroteNothing } ∧
    exec (.wrF5None a v) s = .next { s with last := some wroteNothing }) ∧
  (∀ (s : State) (a : Addr) (v : Byte) (txs : List Transaction),
    legal s.config = true → s.master = wr a v :: txs →
    (s.config.family = some .noMapper ∧ a.toNat ≤ 0x7FFF) ∨
    (s.config.family = some .family2 ∧ a.toNat ≤ 0x1FFF ∧ a.toNat / 256 % 2 = 1) ∨
    (s.config.family = some .family2 ∧ 0x2000 ≤ a.toNat ∧ a.toNat ≤ 0x3FFF ∧ a.toNat / 256 % 2 = 0) ∨
    (s.config.family = some .family2 ∧ 0x4000 ≤ a.toNat ∧ a.toNat ≤ 0x7FFF) ∨
    (s.config.family = some .family3 ∧ 0x6000 ≤ a.toNat ∧ a.toNat ≤ 0x7FFF) ∨
    (s.config.family = some .family5 ∧ 0x6000 ≤ a.toNat ∧ a.toNat ≤ 0x7FFF) →
    step s = .next { s with master := txs, last := some wroteNothing })

/-! ## RAM accesses -/

/-- R71, R72 (decision D10, log entry 14): RAM bank 0 under NoMapper, behind `HAS_RAM`; the write stores one cell and
nothing else, the read changes nothing. -/
def Obligations.NoMapperRamAccess : Prop :=
  ∀ (s : State) (a : Addr) (v : Byte), s.config.family = some .noMapper → inRamWindow a → s.ram.wf →
    (s.config.hasRam = true →
      (∃ m : Memory,
        (∀ k, m.read k = if k = a.toNat - 0xA000 then v else s.ram.read k) ∧
        exec (.wrNmRam a v) s =
          .next { s with ram := m, last := some ⟨.ok, none, .ram 0 (a.toNat - 0xA000) (some v)⟩ }) ∧
      exec (.rdRamNm a) s =
        .next { s with
          last := some ⟨.ok, some (s.ram.read (a.toNat - 0xA000)), .ram 0 (a.toNat - 0xA000) none⟩ }) ∧
    (s.config.hasRam = false →
      exec (.wrNmRam a v) s = .next { s with last := some wroteNothing } ∧
      exec (.rdRamNm a) s = .next { s with last := some ⟨.ok, some s.config.openBus, .idle⟩ })

/-- R77, R78: RAM under Family1, behind `ram_en`, in the bank of the mux (`ramSel`: `RamBankTable`, decision D8); the
write stores one cell and nothing else. -/
def Obligations.Family1RamAccess : Prop :=
  ∀ (s : State) (a : Addr) (v : Byte) (b k₀ : Nat), s.config.family = some .family1 → inRamWindow a → s.ram.wf →
    b = (ramSel s.config s.regs).toNat % s.config.nRamBanks → k₀ = b * 0x2000 + (a.toNat - 0xA000) →
    (s.regs.ramEn = true →
      (∃ m : Memory, (∀ k, m.read k = if k = k₀ then v else s.ram.read k) ∧
        exec (.wrF1Ram a v) s =
          .next { s with ram := m, last := some ⟨.ok, none, .ram b (a.toNat - 0xA000) (some v)⟩ }) ∧
      exec (.rdRamF1 a) s =
        .next { s with last := some ⟨.ok, some (s.ram.read k₀), .ram b (a.toNat - 0xA000) none⟩ }) ∧
    (s.regs.ramEn = false →
      exec (.wrF1Ram a v) s = .next { s with last := some wroteNothing } ∧
      exec (.rdRamF1 a) s = .next { s with last := some ⟨.ok, some s.config.openBus, .idle⟩ })

/-- R85, R86 (decision D12, log entry 10): 512 cells of four bits under Family2; the high nibble of a read and every read
outside the cells come from the parameters. -/
def Obligations.Family2RamAccess : Prop :=
  ∀ (s : State) (a : Addr) (v : Byte), s.config.family = some .family2 → inRamWindow a → s.ram.wf →
    (s.regs.ramEn = true → a.toNat ≤ 0xA1FF →
      (∃ (m : Memory) (x : Byte), x.toNat = v.toNat % 16 ∧
        (∀ k, m.read k = if k = a.toNat - 0xA000 then x else s.ram.read k) ∧
        exec (.wrF2Ram a v) s =
          .next { s with ram := m, last := some ⟨.ok, none, .ram 0 (a.toNat - 0xA000) (some x)⟩ }) ∧
      (∃ x : Byte, x.toNat = 16 * s.config.f2HiNibble.toNat + (s.ram.read (a.toNat - 0xA000)).toNat % 16 ∧
        exec (.rdRamF2 a) s = .next { s with last := some ⟨.ok, some x, .ram 0 (a.toNat - 0xA000) none⟩ })) ∧
    (s.regs.ramEn = false ∨ 0xA200 ≤ a.toNat →
      exec (.wrF2Ram a v) s = .next { s with last := some wroteNothing } ∧
      exec (.rdRamF2 a) s = .next { s with last := some ⟨.ok, some s.config.openBus, .idle⟩ })

/-- R91, R92, R93 (decisions D13, D14, log entries 5 and 11): RAM, clock routing and no target under Family3. A clock read
answers the byte the collaborator supplies, any byte if it supplies none, and changes neither registers nor RAM. -/
def Obligations.Family3RamAndClockAccess : Prop :=
  ∀ (s : State) (a : Addr) (v : Byte) (b k₀ : Nat), s.config.family = some .family3 → inRamWindow a → s.ram.wf →
    b = s.regs.ramsel.toNat % s.config.nRamBanks → k₀ = b * 0x2000 + (a.toNat - 0xA000) →
    (s.regs.ramEn = true → s.regs.ramsel.toNat ≤ 7 →
      (∃ m : Memory, (∀ k, m.read k = if k = k₀ then v else s.ram.read k) ∧
        exec (.wrF3Ram a v) s =
          .next { s with ram := m, last := some ⟨.ok, none, .ram b (a.toNat - 0xA000) (some v)⟩ }) ∧
      exec (.rdRamF3 a) s =
        .next { s with last := some ⟨.ok, some (s.ram.read k₀), .ram b (a.toNat - 0xA000) none⟩ }) ∧
    (s.regs.ramEn = true → 8 ≤ s.regs.ramsel.toNat → s.regs.ramsel.toNat ≤ 12 →
      exec (.wrF3Ram a v) s = .next { s with last := some ⟨.ok, none, .clock s.regs.ramsel (some v)⟩ } ∧
      (∀ x xs, s.clkIn = x :: xs →
        exec (.rdRamF3 a) s =
          .next { s with clkIn := xs, last := some ⟨.ok, some x, .clock s.regs.ramsel none⟩ }) ∧
      (s.clkIn = [] → ∃ x,
        exec (.rdRamF3 a) s =
          .next { s with draws := s.draws + 1, last := some ⟨.ok, some x, .clock s.regs.ramsel none⟩ })) ∧
    (s.regs.ramEn = false ∨ 13 ≤ s.regs.ramsel.toNat →
      exec (.wrF3Ram a v) s = .next { s with last := some wroteNothing } ∧
      exec (.rdRamF3 a) s = .next { s with last := some ⟨.ok, some s.config.openBus, .idle⟩ })

/-- R99, R100: RAM under Family5, behind `ram_en`, all sixteen selector values. (That `ram_en` can be set in this family
is decision D15, log entry 13.) -/
def Obligations.Family5RamAccess : Prop :=
  ∀ (s : State) (a : Addr) (v : Byte) (b k₀ : Nat), s.config.family = some .family5 → inRamWindow a → s.ram.wf →
    b = s.regs.ramsel.toNat % s.config.nRamBanks → k₀ = b * 0x2000 + (a.toNat - 0xA000) →
    (s.regs.ramEn = true →
      (∃ m : Memory, (∀ k, m.read k = if k = k₀ then v else s.ram.read k) ∧
        exec (.wrF5Ram a v) s =
          .next { s with ram := m, last := some ⟨.ok, none, .ram b (a.toNat - 0xA000) (some v)⟩ }) ∧
      exec (.rdRamF5 a) s =
        .next { s with last := some ⟨.ok, some (s.ram.read k₀), .ram b (a.toNat - 0xA000) none⟩ }) ∧
    (s.regs.ramEn = false →
      exec (.wrF5Ram a v) s = .next { s with last := some wroteNothing } ∧
      exec (.rdRamF5 a) s = .next { s with last := some ⟨.ok, some s.config.openBus, .idle⟩ })

/-- R101 to R106 (decisions D16, D17, log entry 12): Family6 and Family7. Register writes and all Family7 writes raise;
under the invariant, which keeps `ram_en` 0, Family6 RAM writes are dropped and reads give open bus; Family7 reads give
the neutral byte. -/
def Obligations.Family6And7Accesses : Prop :=
  ∀ (s : State) (a : Addr) (v : Byte),
    exec (.wrF6Reg a v) s = .next { s with last := some ⟨.unimplementedFamily, none, .idle⟩ } ∧
    exec (.wrF7Reg a v) s = .next { s with last := some ⟨.unimplementedFamily, none, .idle⟩ } ∧
    exec (.wrF7Ram a v) s = .next { s with last := some ⟨.unimplementedFamily, none, .idle⟩ } ∧
    exec (.rdRamF7 a) s = .next { s with last := some ⟨.ok, some s.config.f7Neutral, .idle⟩ } ∧
    (s.config.family = some .family6 → Inv s →
      exec (.wrF6Ram a v) s = .next { s with last := some wroteNothing } ∧
      exec (.rdRamF6 a) s = .next { s with last := some ⟨.ok, some s.config.openBus, .idle⟩ })

/-- R46(a), R67: an accepted write is read back from the same address by the next transaction, and every other cell
reads as before. (Family2 keeps four bits: `Family2NibbleRoundTrip`. That NoMapper's gate is `HAS_RAM` is decision D10,
log entry 14, and that a register of Family5 opens its gate is D15, log entry 13.) -/
def Obligations.RamWriteReadsBack : Prop :=
  ∀ (s : State) (a : Addr) (v : Byte) (b o : Nat), Inv s → legal s.config = true →
    s.config.family ≠ some .family2 → inRamWindow a →
    ramGate s.config s.regs = true → ramTarget s.config s.regs a = .ram b o →
    ∃ t, issueAll [wr a v, rd a] s = .next t ∧ t.last = some ⟨.ok, some v, .ram b o none⟩ ∧
      t.config = s.config ∧ t.regs = s.regs ∧ ∀ k, k ≠ b * 0x2000 + o → t.ram.read k = s.ram.read k

/-- R86 (decision D12, log entry 10: the high nibble is the parameter `F2_HI_NIBBLE`, where U4 has any value at each read):
under Family2 the low nibble of a written byte is read back, and the high nibble of the answer is the parameter. -/
def Obligations.Family2NibbleRoundTrip : Prop :=
  ∀ (s : State) (a : Addr) (v : Byte), s.config.family = some .family2 → legal s.config = true → s.ram.wf →
    s.regs.ramEn = true → 0xA000 ≤ a.toNat → a.toNat ≤ 0xA1FF →
    ∃ t x p, issueAll [wr a v, rd a] s = .next t ∧ t.last = some ⟨.ok, some x, p⟩ ∧ x.toNat % 16 = v.toNat % 16 ∧
      x.toNat / 16 = s.config.f2HiNibble.toNat

/-- The source's third property (S3), R78, R86, R92, R100: under Families 1, 2, 3 and 5, where the gate is `ram_en`,
closing it drops a write and hides the cell, and reopening it shows the old contents (under Family2 their low nibble, below
`F2_HI_NIBBLE`: decision D12, log entry 10). That a register of Family5 opens its gate is decision D15 (log entry 13, U13),
that Family2's register closes it is D11 (log entry 19). -/
def Obligations.ClosedGateHidesButKeepsRam : Prop :=
  (∀ (s : State) (f : Family) (a : Addr) (v : Byte) (b o : Nat), s.config.family = some f →
    f = .family1 ∨ f = .family3 ∨ f = .family5 → legal s.config = true → s.regs.ramEn = true → inRamWindow a →
    ramTarget s.config s.regs a = .ram b o →
    (∃ t, issueAll (seqRamOff ++ [wr a v, rd a]) s = .next t ∧ t.last = some ⟨.ok, some s.config.openBus, .idle⟩) ∧
    (∃ t, issueAll (seqRamOff ++ [wr a v] ++ seqRamOn ++ [rd a]) s = .next t ∧ sameBlock s t ∧
      t.last = some ⟨.ok, some (s.ram.read (b * 0x2000 + o)), .ram b o none⟩)) ∧
  (∀ (s : State) (a : Addr) (v : Byte), s.config.family = some .family2 → legal s.config = true →
    s.regs.ramEn = true → 0xA000 ≤ a.toNat → a.toNat ≤ 0xA1FF →
    (∃ t, issueAll (seqRamOff ++ [wr a v, rd a]) s = .next t ∧ t.last = some ⟨.ok, some s.config.openBus, .idle⟩) ∧
    (∃ t x, issueAll (seqRamOff ++ [wr a v] ++ seqRamOn ++ [rd a]) s = .next t ∧ sameBlock s t ∧
      x.toNat = 16 * s.config.f2HiNibble.toNat + (s.ram.read (a.toNat - 0xA000)).toNat % 16 ∧
      t.last = some ⟨.ok, some x, .ram 0 (a.toNat - 0xA000) none⟩))

/-! ## The whole machine -/

/-- R32: every step keeps the invariant, from every state that has it. -/
def Obligations.StepKeepsInvariant : Prop := ∀ s t : State, Inv s → step s = .next t → Inv t

/-- R33, R125 (`mode` and `sec`: decision D6, log entry 3): the reset state and every state after load have the
invariant, if image and RAM are canonical and within their banks. -/
def Obligations.LoadStatesHaveInvariant : Prop :=
  Inv State.reset ∧
  ∀ (c : Config) (m : Memory), m.wf → m.below (c.nRamBanks * 0x2000) → c.image.wf → c.image.below c.imageLen →
    Inv (State.atLoad c m)

/-- R2, R16, R29: no run changes a parameter: family, straps, bank counts, the image. -/
def Obligations.ParametersNeverChange : Prop :=
  ∀ (n : Nat) (s t : State), runSteps n s = .next t → t.config = s.config

/-- R26, R45(c) to (e), R66 (that writes under NoMapper, Family6 and Family7, and the program-window writes to no
register, change none: decisions D16, D17, D19, log entries 12 and 19; the gate of NoMapper: D10, log entry 14; that of
Family5: D15, log entry 13): only a write into the program window under Families 1, 2, 3 and 5 changes a register, and
only a RAM-window write behind an open gate changes RAM. -/
def Obligations.OnlyWritesChangeTheBlock : Prop :=
  ∀ (s t : State) (tx : Transaction) (txs : List Transaction), legal s.config = true → s.master = tx :: txs →
    step s = .next t →
    (t.regs ≠ s.regs → tx.dir = .write ∧ inProgramWindow tx.addr ∧
      (s.config.family = some .family1 ∨ s.config.family = some .family2 ∨ s.config.family = some .family3 ∨
        s.config.family = some .family5)) ∧
    (t.ram ≠ s.ram → tx.dir = .write ∧ inRamWindow tx.addr ∧ ramGate s.config s.regs = true)

/-- R42 (NoMapper's gate is `HAS_RAM`: decision D10, log entry 14): behind a closed gate RAM is out of reach: what a
transaction does and answers does not depend on the RAM contents, and it leaves them alone. -/
def Obligations.ClosedGateIsolatesRam : Prop :=
  ∀ (s t : State) (m : Memory), ramGate s.config s.regs = false → step s = .next t →
    t.ram = s.ram ∧ step { s with ram := m } = .next { t with ram := m }

/-- R8 (decision D10, log entry 14): outside NoMapper nothing depends on `HAS_RAM`. -/
def Obligations.HasRamMattersOnlyToNoMapper : Prop :=
  ∀ (s t : State) (x : Bool), s.config.family ≠ some .noMapper → step s = .next t →
    step { s with config := { s.config with hasRam := x } } =
      .next { t with config := { t.config with hasRam := x } }

/-- R52 (ports: decision D1, log entry 15; that the clock is behind the gate: decision D14, log entry 11): the ports of
a response tell what happened: the RAM changes exactly as `ram_we` says, a program bank is below the bank count, and
the clock is addressed only under Family3 with the gate open and `ramsel` in 8 to 12, which is then the index. -/
def Obligations.PortsDescribeTheAccess : Prop :=
  ∀ (s t : State) (tx : Transaction) (txs : List Transaction) (r : Response), legal s.config = true →
    s.master = tx :: txs → step s = .next t → t.last = some r →
    (r.ramWe = false → t.ram = s.ram) ∧
    (∀ b o d, r.port = .ram b o (some d) → t.ram = s.ram.write (b * 0x2000 + o) d ∧ b < s.config.nRamBanks ∧ o < 0x2000) ∧
    (∀ b o, r.port = .rom b o → b < s.config.nRomBanks ∧ o < 0x4000 ∧ r.rdata = some (romRead s.config b o)) ∧
    (∀ i, r.clkIdx = some i → s.config.family = some .family3 ∧ s.regs.ramEn = true ∧ i = s.regs.ramsel ∧
      8 ≤ i.toNat ∧ i.toNat ≤ 12 ∧ inRamWindow tx.addr ∧ (r.clkWr = true ↔ tx.dir = .write) ∧
      (tx.dir = .write → r.clkD = some tx.data))

/-- R28, R85 (decision D12): under Family2 a state whose RAM holds only four-bit values keeps doing so. -/
def Obligations.Family2CellsStayFourBits : Prop :=
  ∀ s t : State, s.config.family = some .family2 → (∀ c ∈ s.ram, c.2.toNat < 16) → step s = .next t →
    ∀ c ∈ t.ram, c.2.toNat < 16

/-- R79 [derived in the spec; decisions D7, D8]: an instance under `AT_ACCESS` and one under `AT_WRITE` that hold the same
selectors answer every transaction alike and hold the same selectors after it, as long as no write changes the mode while
the secondary bits are not 0. -/
def Obligations.SecondaryBindingsAgree : Prop :=
  ∀ (s t : State), bindingsMatch s t → legal s.config = true →
    (∀ (a : Addr) (v : Byte) (txs : List Transaction), s.master = wr a v :: txs → 0x6000 ≤ a.toNat → a.toNat ≤ 0x7FFF →
      s.regs.sec = 0#2 ∨ s.regs.mode = decide (v.toNat % 2 = 1)) →
    ∃ s' t', step s = .next s' ∧ step t = .next t' ∧ bindingsMatch s' t' ∧ (s.master ≠ [] → s'.last = t'.last)

/-! ## Load, save, restore -/

/-- R33, R125 (`mode` and `sec`: decision D6, log entry 3): the state after load, and that `reset` is the load state, with
zeroed RAM, of its own cartridge, a legal one. Which cartridge that is, is the model's choice (log entry 2), and so is that
no clock byte is listed and none was drawn (log entry 5). -/
def Obligations.ValuesAfterLoad : Prop :=
  (∀ (c : Config) (m : Memory),
    (State.atLoad c m).regs.bank1.toNat = 1 ∧ (State.atLoad c m).regs.ramsel.toNat = 0 ∧
    (State.atLoad c m).regs.ramEn = false ∧ (State.atLoad c m).regs.mode = c.modeReset ∧
    (State.atLoad c m).regs.sec.toNat = 0 ∧ (State.atLoad c m).ram = m ∧ (State.atLoad c m).config = c ∧
    (State.atLoad c m).last = none) ∧
  State.reset = State.atLoad State.reset.config [] ∧
  (∀ k, State.reset.ram.read k = 0x00#8) ∧ legal State.reset.config = true ∧
  State.reset.regs.bank1.toNat = 1 ∧ State.reset.regs.ramsel.toNat = 0 ∧ State.reset.regs.ramEn = false ∧
  State.reset.regs.mode = false ∧ State.reset.regs.sec.toNat = 0

/-- R125, what follows at once after load (S7, S6; `mode` and `sec`: decision D6, log entry 3; NoMapper's gate: D10,
log entry 14; Family6 and Family7: D16, D17, log entry 12): the upper window shows bank 1 modulo the bank count, and
the RAM window reads open bus, but RAM bank 0 under NoMapper with RAM and the neutral byte under Family7. -/
def Obligations.WindowsAfterLoad : Prop :=
  ∀ (c : Config) (m : Memory) (a : Addr), legal c = true →
    (0x4000 ≤ a.toNat → a.toNat ≤ 0x7FFF → ∃ p,
      responseTo (rd a) (State.atLoad c m) =
        some ⟨.ok, some (c.image.read (1 % c.nRomBanks * 0x4000 + (a.toNat - 0x4000))), p⟩) ∧
    (inRamWindow a → c.family ≠ some .noMapper ∨ c.hasRam = false → c.family ≠ some .family7 →
      responseTo (rd a) (State.atLoad c m) = some ⟨.ok, some c.openBus, .idle⟩) ∧
    (inRamWindow a → c.family = some .noMapper → c.hasRam = true → ∃ p,
      responseTo (rd a) (State.atLoad c m) = some ⟨.ok, some (m.read (a.toNat - 0xA000)), p⟩) ∧
    (inRamWindow a → c.family = some .family7 →
      responseTo (rd a) (State.atLoad c m) = some ⟨.ok, some c.f7Neutral, .idle⟩)

/-- R109, R110, R122, R124, R125, R126, R127: load fails on an image that is empty or no whole number of banks, without a
family and without a RAM bank; else it gives the state after load: the parameters of `c` with the image attached, the
registers of R125 (`mode` and `sec`: decision D6, log entry 3), RAM zero, no transaction issued; it is legal and has the
image's bytes in its banks (R29, R41). The order of the three failures when several hold, and the name of the third, are the
model's choice (log entry 23), and so are the empty input lists that `State.atLoad` gives (log entries 5, 6, 15). -/
def Obligations.LoadChecksItsImage : Prop :=
  ∀ (raw : List Byte) (c : Config),
    (load raw c = .error .malformedImage ↔ raw.length % 0x4000 ≠ 0 ∨ raw.length = 0) ∧
    (raw.length % 0x4000 = 0 → raw.length ≠ 0 → c.family = none → load raw c = .error .unknownCartridgeType) ∧
    (raw.length % 0x4000 = 0 → raw.length ≠ 0 → c.family ≠ none → c.nRamBanks = 0 →
      load raw c = .error .noRamBank) ∧
    (raw.length % 0x4000 = 0 → raw.length ≠ 0 → c.family ≠ none → c.nRamBanks ≠ 0 →
      ∃ s, load raw c = .ok s ∧
        s = State.atLoad { c with imageLen := raw.length, image := s.config.image } [] ∧
        s.regs = { ramEn := false, bank1 := 1#9, sec := 0#2, mode := c.modeReset, ramsel := 0#4 } ∧
        (∀ k, s.ram.read k = 0x00#8) ∧ s.last = none ∧
        legal s.config = true ∧ Inv s ∧ s.config.nRomBanks * 0x4000 = raw.length ∧
        ∀ b o, o < 0x4000 → b < s.config.nRomBanks → raw[b * 0x4000 + o]? = some (romRead s.config b o))

/-- R120, R126 (decision D22, log entry 18): the RAM contents handed out are all banks in order, and restoring them into a
fresh instance of the same cartridge gives the same RAM, byte for byte; a running instance is not written. -/
def Obligations.SaveThenRestoreKeepsRam : Prop :=
  (∀ s : State, (saveRam s).length = s.config.nRamBanks * 0x2000 ∧
    ∀ k, k < s.config.nRamBanks * 0x2000 → (saveRam s)[k]? = some (s.ram.read k)) ∧
  (∀ s : State, Inv s →
    restoreRam (saveRam s) (State.atLoad s.config []) = some (State.atLoad s.config s.ram)) ∧
  (∀ (s : State) (bytes : List Byte), s.last ≠ none → restoreRam bytes s = none)

/-! ## Sequences of transactions -/

/-- R58 (shorthands: decision D24; RAMON and RAMOFF of Family5: D15, log entry 13; RAMOFF of Family2: D11, log entry
19; ROMBANK7 and Family1's RAMBANK: D7, D8, D20, log entry 3; Family3's RAMBANK and ranges: D13, log entry 11; bit 8 in
ROMBANK9: D20, log entry 13): what each composite sequence leaves in the registers. -/
def Obligations.CompositeSequencesLoadRegisters : Prop :=
  ∀ (s : State) (f : Family), s.config.family = some f → legal s.config = true →
    (f = .family1 ∨ f = .family2 ∨ f = .family3 ∨ f = .family5 →
      (∃ t, issueAll seqRamOn s = .next t ∧ t.regs = { s.regs with ramEn := true }) ∧
      (∃ t, issueAll seqRamOff s = .next t ∧ t.regs = { s.regs with ramEn := false })) ∧
    (f = .family1 → ∀ n : BitVec 5, n.toNat ≠ 0 →
      ∃ t, issueAll (seqRomBankF1 n) s = .next t ∧ t.regs.bank1.toNat % 32 = n.toNat) ∧
    (f = .family1 → s.regs.mode = false → ∀ n : BitVec 7,
      ∃ t, issueAll (seqRomBank7 n) s = .next t ∧
        (romxSel t.config t.regs).toNat = n.toNat / 32 * 32 + (if n.toNat % 32 = 0 then 1 else n.toNat % 32)) ∧
    (f = .family2 → ∀ n : BitVec 4, n.toNat ≠ 0 →
      ∃ t, issueAll (seqRomBankF2 n) s = .next t ∧ t.regs.bank1.toNat % 16 = n.toNat) ∧
    (f = .family3 → ∀ n : BitVec 7, n.toNat ≠ 0 →
      ∃ t, issueAll (seqRomBankF3 n) s = .next t ∧ t.regs.bank1.toNat % 128 = n.toNat) ∧
    (f = .family5 → ∀ n : BitVec 9, ∃ t, issueAll (seqRomBank9 n) s = .next t ∧ t.regs = { s.regs with bank1 := n }) ∧
    (f = .family1 → s.regs.mode = true → ∀ n : BitVec 2,
      ∃ t, issueAll (seqRamBankF1 n) s = .next t ∧ (ramSel t.config t.regs).toNat = n.toNat) ∧
    (f = .family3 → ∀ n : BitVec 3, ∃ t, issueAll (seqRamBankF3 n) s = .next t ∧ t.regs.ramsel.toNat = n.toNat) ∧
    (f = .family5 → ∀ n : BitVec 4, ∃ t, issueAll (seqRamBankF5 n) s = .next t ∧ t.regs.ramsel = n)

/-- R128: between the two writes of a selector change the upper window reads the bank that old and new bits name
together, in either order of the writes: the 9-bit selector of Family5 (bit 8 from `v[0]`: decision D20, log entry 13)
and the 7-bit selector of Family1 in mode 0, under both bindings (decisions D7, D8, log entry 3; remap at the write,
wrap at the read: D9, log entry 3). -/
def Obligations.HalfWrittenSelectorIsVisible : Prop :=
  (∀ (s : State) (n : BitVec 9) (a : Addr), s.config.family = some .family5 → legal s.config = true →
    0x4000 ≤ a.toNat → a.toNat ≤ 0x7FFF →
    upperReadAfter (wr 0x2000#16 (n.extractLsb' 0 8)) a (s.regs.bank1.toNat / 256 * 256 + n.toNat % 256) s ∧
    upperReadAfter (wr 0x3000#16 ((n.extractLsb' 8 1).setWidth 8)) a
      (n.toNat / 256 * 256 + s.regs.bank1.toNat % 256) s) ∧
  (∀ (s : State) (n : BitVec 7) (a : Addr) (old : Nat), s.config.family = some .family1 → legal s.config = true →
    s.regs.mode = false → old = (romxSel s.config s.regs).toNat → 0x4000 ≤ a.toNat → a.toNat ≤ 0x7FFF →
    upperReadAfter (wr 0x2000#16 ((n.extractLsb' 0 5).setWidth 8)) a
      (old / 32 * 32 + (if n.toNat % 32 = 0 then 1 else n.toNat % 32)) s ∧
    upperReadAfter (wr 0x4000#16 ((n.extractLsb' 5 2).setWidth 8)) a (n.toNat / 32 * 32 + old % 32) s)

/-- R49(a), R129, R46(b): a write that changes the upper-window selector is seen by the very next read of the upper
window (the address is the master's, so a fetch continues at it in the new bank), for every family with such a write.
New bits from R74, R75, R76 (decisions D7, D8, D9, D20, log entry 3), R81, R88 (Family3's range: D13, log entry 11),
R95, R96 (D20, log entry 13); `old` is the selector before the write. -/
def Obligations.BankSwitchIsSeenByTheNextRead : Prop :=
  ∀ (s : State) (a w : Addr) (v : Byte) (old : Nat), legal s.config = true → old = (romxSel s.config s.regs).toNat →
    0x4000 ≤ a.toNat → a.toNat ≤ 0x7FFF →
    (s.config.family = some .family1 →
      (0x2000 ≤ w.toNat → w.toNat ≤ 0x3FFF →
        upperReadAfter (wr w v) a (old / 32 * 32 + (if v.toNat % 32 = 0 then 1 else v.toNat % 32)) s) ∧
      (0x4000 ≤ w.toNat → w.toNat ≤ 0x5FFF →
        upperReadAfter (wr w v) a (if s.regs.mode then old else 32 * (v.toNat % 4) + old % 32) s) ∧
      (0x6000 ≤ w.toNat → w.toNat ≤ 0x7FFF → s.config.secBinding = .atAccess →
        upperReadAfter (wr w v) a ((if v.toNat % 2 = 1 then 0 else 32 * s.regs.sec.toNat) + old % 32) s) ∧
      (0x6000 ≤ w.toNat → w.toNat ≤ 0x7FFF → s.config.secBinding = .atWrite →
        upperReadAfter (wr w v) a old s)) ∧
    (s.config.family = some .family2 → 0x2000 ≤ w.toNat → w.toNat ≤ 0x3FFF → w.toNat / 256 % 2 = 1 →
      upperReadAfter (wr w v) a (if v.toNat % 16 = 0 then 1 else v.toNat % 16) s) ∧
    (s.config.family = some .family3 → 0x2000 ≤ w.toNat → w.toNat ≤ 0x3FFF →
      upperReadAfter (wr w v) a (if v.toNat % 128 = 0 then 1 else v.toNat % 128) s) ∧
    (s.config.family = some .family5 →
      (0x2000 ≤ w.toNat → w.toNat ≤ 0x2FFF → upperReadAfter (wr w v) a (old / 256 * 256 + v.toNat) s) ∧
      (0x3000 ≤ w.toNat → w.toNat ≤ 0x3FFF → upperReadAfter (wr w v) a (256 * (v.toNat % 2) + old % 256) s))
end

