-- ==== Sys2Proof/Laws/Decode.lean ====
section
/-! SUPPORT. The decoder's bit tests as ranges of numbers (R35 and R54 give both), the strap code as a bijection, and the
fields of a packed word. -/

namespace Sys2Proof

theorem window_eq_lower_iff (a : Addr) : window a = .lower ↔ a.toNat ≤ 0x3FFF := by
  have := a.isLt
  simp only [window, BitVec.toNat_eq, BitVec.extractLsb'_toNat, Nat.shiftRight_eq_div_pow]
  split_ifs <;> simp_all <;> omega

theorem window_eq_upper_iff (a : Addr) : window a = .upper ↔ 0x4000 ≤ a.toNat ∧ a.toNat ≤ 0x7FFF := by
  have := a.isLt
  simp only [window, BitVec.toNat_eq, BitVec.extractLsb'_toNat, Nat.shiftRight_eq_div_pow]
  split_ifs <;> simp_all <;> omega

theorem window_eq_invalid8_iff (a : Addr) : window a = .invalid8 ↔ 0x8000 ≤ a.toNat ∧ a.toNat ≤ 0x9FFF := by
  have := a.isLt
  simp only [window, BitVec.toNat_eq, BitVec.extractLsb'_toNat, Nat.shiftRight_eq_div_pow]
  split_ifs <;> simp_all <;> omega

theorem window_eq_ramWin_iff (a : Addr) : window a = .ramWin ↔ 0xA000 ≤ a.toNat ∧ a.toNat ≤ 0xBFFF := by
  have := a.isLt
  simp only [window, BitVec.toNat_eq, BitVec.extractLsb'_toNat, Nat.shiftRight_eq_div_pow]
  split_ifs <;> simp_all <;> omega

theorem window_eq_invalidC_iff (a : Addr) : window a = .invalidC ↔ 0xC000 ≤ a.toNat := by
  have := a.isLt
  simp only [window, BitVec.toNat_eq, BitVec.extractLsb'_toNat, Nat.shiftRight_eq_div_pow]
  split_ifs <;> simp_all <;> omega

/-- `a[15:14]` as a quotient. -/
theorem top2_eq_iff (a : Addr) (k : BitVec 2) : a.extractLsb' 14 2 = k ↔ a.toNat / 0x4000 = k.toNat := by
  have := a.isLt
  simp only [BitVec.toNat_eq, BitVec.extractLsb'_toNat, Nat.shiftRight_eq_div_pow]
  omega

/-- `a[15:13]` as a quotient. -/
theorem top3_eq_iff (a : Addr) (k : BitVec 3) : a.extractLsb' 13 3 = k ↔ a.toNat / 0x2000 = k.toNat := by
  have := a.isLt
  simp only [BitVec.toNat_eq, BitVec.extractLsb'_toNat, Nat.shiftRight_eq_div_pow]
  omega

/-- `a[15:12]` as a quotient. -/
theorem top4_eq_iff (a : Addr) (k : BitVec 4) : a.extractLsb' 12 4 = k ↔ a.toNat / 0x1000 = k.toNat := by
  have := a.isLt
  simp only [BitVec.toNat_eq, BitVec.extractLsb'_toNat, Nat.shiftRight_eq_div_pow]
  omega

/-- `a[8]` as a quotient. -/
theorem bit8_eq (a : Addr) : a.getLsbD 8 = decide (a.toNat / 0x100 % 2 = 1) := by
  rw [BitVec.getLsbD, Nat.testBit_eq_decide_div_mod_eq]

/-- The same bit, as simp writes it. -/
theorem bit8_getElem (a : Addr) : a[8] = decide (a.toNat / 0x100 % 2 = 1) := by
  rw [← BitVec.getLsbD_eq_getElem, bit8_eq]

/-- The operations a read can be, by its window (R54). -/
theorem decode_read_cases (f : Family) (a : Addr) (v : Byte) :
    (a.toNat ≤ 0x3FFF ∧ decode (some f) .read a v = .rdRom0 a) ∨
    (0x4000 ≤ a.toNat ∧ a.toNat ≤ 0x7FFF ∧ decode (some f) .read a v = .rdRomX a) ∨
    (0x8000 ≤ a.toNat ∧ a.toNat ≤ 0x9FFF ∧ decode (some f) .read a v = .rdInv8 a) ∨
    (0xA000 ≤ a.toNat ∧ a.toNat ≤ 0xBFFF ∧ decode (some f) .read a v = decodeRamRead f a) ∨
    (0xC000 ≤ a.toNat ∧ decode (some f) .read a v = .rdInvC a) := by
  cases h : window a with
  | lower => exact .inl ⟨(window_eq_lower_iff a).1 h, by simp [decode, h]⟩
  | upper =>
    obtain ⟨h₁, h₂⟩ := (window_eq_upper_iff a).1 h
    exact .inr (.inl ⟨h₁, h₂, by simp [decode, h]⟩)
  | invalid8 =>
    obtain ⟨h₁, h₂⟩ := (window_eq_invalid8_iff a).1 h
    exact .inr (.inr (.inl ⟨h₁, h₂, by simp [decode, h]⟩))
  | ramWin =>
    obtain ⟨h₁, h₂⟩ := (window_eq_ramWin_iff a).1 h
    exact .inr (.inr (.inr (.inl ⟨h₁, h₂, by simp [decode, h]⟩)))
  | invalidC => exact .inr (.inr (.inr (.inr ⟨(window_eq_invalidC_iff a).1 h, by simp [decode, h]⟩)))

/-- The operations a write can be, by its window (R54, R66). -/
theorem decode_write_cases (f : Family) (a : Addr) (v : Byte) :
    (a.toNat ≤ 0x7FFF ∧ decode (some f) .write a v = decodeRegWrite f a v) ∨
    (0x8000 ≤ a.toNat ∧ a.toNat ≤ 0x9FFF ∧ decode (some f) .write a v = .wrInv8 a v) ∨
    (0xA000 ≤ a.toNat ∧ a.toNat ≤ 0xBFFF ∧ decode (some f) .write a v = decodeRamWrite f a v) ∨
    (0xC000 ≤ a.toNat ∧ decode (some f) .write a v = .wrInvC a v) := by
  cases h : window a with
  | lower =>
    have h₁ := (window_eq_lower_iff a).1 h
    exact .inl ⟨by omega, by simp [decode, h]⟩
  | upper => exact .inl ⟨((window_eq_upper_iff a).1 h).2, by simp [decode, h]⟩
  | invalid8 =>
    obtain ⟨h₁, h₂⟩ := (window_eq_invalid8_iff a).1 h
    exact .inr (.inl ⟨h₁, h₂, by simp [decode, h]⟩)
  | ramWin =>
    obtain ⟨h₁, h₂⟩ := (window_eq_ramWin_iff a).1 h
    exact .inr (.inr (.inl ⟨h₁, h₂, by simp [decode, h]⟩))
  | invalidC => exact .inr (.inr (.inr ⟨(window_eq_invalidC_iff a).1 h, by simp [decode, h]⟩))

/-- The code of a strap names the strap (R50). -/
@[simp] theorem familyOfCode_codeOfFamily (f : Option Family) : familyOfCode (codeOfFamily f) = f := by
  rcases f with - | f
  · rfl
  · cases f <;> rfl

@[simp] theorem codeOfFamily_familyOfCode (k : BitVec 3) : codeOfFamily (familyOfCode k) = k := by
  revert k
  decide

@[simp] theorem dirOfBit_bitOfDir (d : Dir) : dirOfBit ((bitOfDir d).getLsbD 0) = d := by cases d <;> rfl

/-- Appending fields is placing them (no carry: the parts do not overlap, R133(c)). -/
theorem toNat_append_eq {m n : Nat} (x : BitVec m) (y : BitVec n) : (x ++ y).toNat = x.toNat * 2 ^ n + y.toNat := by
  rw [BitVec.toNat_append, ← Nat.shiftLeft_add_eq_or_of_lt y.isLt, Nat.shiftLeft_eq]

/-- A packed word as a number (R53; 95_test_vectors.md section 1 gives the same sum). -/
theorem toNat_packWord (f : Option Family) (tx : Transaction) :
    (packWord f tx).toNat =
      (codeOfFamily f).toNat * 2 ^ 25 + (bitOfDir tx.dir).toNat * 2 ^ 24 + tx.addr.toNat * 2 ^ 8 + tx.data.toNat := by
  show (codeOfFamily f ++ bitOfDir tx.dir ++ tx.addr ++ tx.data : BitVec (3 + 1 + 16 + 8)).toNat = _
  rw [toNat_append_eq, toNat_append_eq, toNat_append_eq]
  ring

/-- The fields of a packed word (R53). -/
@[simp] theorem wordStrap_packWord (f : Option Family) (tx : Transaction) : wordStrap (packWord f tx) = f := by
  have hf : (packWord f tx).extractLsb' 25 3 = codeOfFamily f := by
    have := (codeOfFamily f).isLt; have := (bitOfDir tx.dir).isLt; have := tx.addr.isLt; have := tx.data.isLt
    rw [BitVec.toNat_eq, BitVec.extractLsb'_toNat, toNat_packWord, Nat.shiftRight_eq_div_pow]
    omega
  rw [wordStrap, hf, familyOfCode_codeOfFamily]

@[simp] theorem wordTransaction_packWord (f : Option Family) (tx : Transaction) : wordTransaction (packWord f tx) = tx := by
  have hb := (bitOfDir tx.dir).isLt; have := tx.addr.isLt; have := tx.data.isLt
  have hv : (packWord f tx).extractLsb' 0 8 = tx.data := by
    rw [BitVec.toNat_eq, BitVec.extractLsb'_toNat, toNat_packWord, Nat.shiftRight_eq_div_pow]
    omega
  have ha : (packWord f tx).extractLsb' 8 16 = tx.addr := by
    rw [BitVec.toNat_eq, BitVec.extractLsb'_toNat, toNat_packWord, Nat.shiftRight_eq_div_pow]
    omega
  have hd : (packWord f tx).getLsbD 24 = decide ((bitOfDir tx.dir).toNat = 1) := by
    rw [BitVec.getLsbD, Nat.testBit_eq_decide_div_mod_eq, toNat_packWord]
    congr 1
    rw [eq_iff_iff]
    omega
  have hdir : dirOfBit ((packWord f tx).getLsbD 24) = tx.dir := by
    rw [hd]
    cases tx.dir <;> rfl
  rw [wordTransaction, hv, ha, hdir]

end Sys2Proof
end

