-- ==== Sys2Proof/Laws/Memory.lean ====
section
/-! SUPPORT. The laws of a memory in canonical form: what a read gives after a store, that every operation keeps the form,
and that a canonical memory is determined by what it reads as. -/

namespace Sys2Proof

@[simp] theorem Memory.read_nil (k : Nat) : Memory.read [] k = Memory.blank := rfl

theorem Memory.wf_nil : Memory.wf [] := ⟨List.Pairwise.nil, by simp⟩

theorem Memory.wf_tail {c : Host.Cell} {m : Memory} (h : Memory.wf (c :: m)) : Memory.wf m :=
  ⟨(List.pairwise_cons.1 h.1).2, fun x hx => h.2 x (List.mem_cons_of_mem _ hx)⟩

/-- The head of a canonical memory lies below the rest. -/
theorem Memory.head_lt {c : Host.Cell} {m : Memory} (h : Memory.wf (c :: m)) : ∀ x ∈ m, c.1 < x.1 :=
  (List.pairwise_cons.1 h.1).1

/-- An address below every listed one reads as blank. -/
theorem Memory.read_of_lt_all {m : Memory} {k : Nat} (h : ∀ c ∈ m, k < c.1) : m.read k = Memory.blank := by
  induction m with
  | nil => rfl
  | cons c m ih =>
    have hc := h c (by simp)
    rw [Memory.read, if_neg (by omega)]
    exact ih fun x hx => h x (List.mem_cons_of_mem _ hx)

/-- Reading what `Memory.cons` put in front. -/
theorem Memory.read_putFront {m : Memory} {k : Nat} (v : Byte) (h : ∀ c ∈ m, k < c.1) (j : Nat) :
    (Memory.cons k v m).read j = if j = k then v else m.read j := by
  unfold Memory.cons
  by_cases hv : v = Memory.blank
  · rw [if_pos hv]
    by_cases hj : j = k
    · rw [if_pos hj, hj, hv, Memory.read_of_lt_all h]
    · rw [if_neg hj]
  · rw [if_neg hv, Memory.read]
    simp only [eq_comm]

theorem Memory.mem_putFront {m : Memory} {k : Nat} {v : Byte} {c : Host.Cell} (h : c ∈ Memory.cons k v m) :
    c = (k, v) ∧ v ≠ Memory.blank ∨ c ∈ m := by
  unfold Memory.cons at h
  split at h
  · exact .inr h
  · rcases List.mem_cons.1 h with h | h
    · exact .inl ⟨h, ‹_›⟩
    · exact .inr h

theorem Memory.wf_putFront {m : Memory} {k : Nat} (v : Byte) (hm : m.wf) (h : ∀ c ∈ m, k < c.1) :
    (Memory.cons k v m).wf := by
  unfold Memory.cons
  split
  · exact hm
  · refine ⟨List.pairwise_cons.2 ⟨h, hm.1⟩, fun c hc => ?_⟩
    rcases List.mem_cons.1 hc with rfl | hc
    · assumption
    · exact hm.2 c hc

/-- What a store can list: the stored cell, or a cell that was there. -/
theorem Memory.mem_write {m : Memory} {k : Nat} {v : Byte} {c : Host.Cell} (h : c ∈ m.write k v) :
    c = (k, v) ∧ v ≠ Memory.blank ∨ c ∈ m := by
  induction m with
  | nil => exact Memory.mem_putFront h
  | cons d m ih =>
    rw [Memory.write] at h
    split at h
    · exact Memory.mem_putFront h
    · split at h
      · rcases Memory.mem_putFront h with h | h
        · exact .inl h
        · exact .inr (List.mem_cons_of_mem _ h)
      · rcases List.mem_cons.1 h with h | h
        · exact .inr (by simp [h])
        · rcases ih h with h | h
          · exact .inl h
          · exact .inr (List.mem_cons_of_mem _ h)

/-- A store keeps the canonical form. -/
theorem Memory.wf_write {m : Memory} (h : m.wf) (k : Nat) (v : Byte) : (m.write k v).wf := by
  induction m with
  | nil => exact Memory.wf_putFront v h (by simp)
  | cons d m ih =>
    rw [Memory.write]
    split
    · refine Memory.wf_putFront v h fun c hc => ?_
      rcases List.mem_cons.1 hc with rfl | hc
      · assumption
      · exact lt_trans ‹_› (Memory.head_lt h c hc)
    · split
      · refine Memory.wf_putFront v (Memory.wf_tail h) fun c hc => ?_
        have := Memory.head_lt h c hc
        omega
      · have hw := ih (Memory.wf_tail h)
        refine ⟨List.pairwise_cons.2 ⟨fun c hc => ?_, hw.1⟩, fun c hc => ?_⟩
        · rcases Memory.mem_write hc with ⟨rfl, -⟩ | hc
          · show d.1 < k
            omega
          · exact Memory.head_lt h c hc
        · rcases List.mem_cons.1 hc with rfl | hc
          · exact h.2 _ (by simp)
          · exact hw.2 c hc

/-- A store within a bound keeps every listed address within it. -/
theorem Memory.below_write {m : Memory} {n k : Nat} (h : m.below n) (hk : k < n) (v : Byte) : (m.write k v).below n := by
  intro c hc
  rcases Memory.mem_write hc with ⟨rfl, -⟩ | hc
  · exact hk
  · exact h c hc

/-- A read after a store: the stored byte at its address, what was there at every other. -/
theorem Memory.read_write {m : Memory} (h : m.wf) (k : Nat) (v : Byte) (j : Nat) :
    (m.write k v).read j = if j = k then v else m.read j := by
  induction m with
  | nil => exact Memory.read_putFront v (by simp) j
  | cons d m ih =>
    rw [Memory.write]
    split
    · refine Memory.read_putFront v (fun c hc => ?_) j
      rcases List.mem_cons.1 hc with rfl | hc
      · assumption
      · exact lt_trans ‹_› (Memory.head_lt h c hc)
    · split
      · subst_vars
        rw [Memory.read_putFront v (Memory.head_lt h) j]
        split
        · rfl
        · rw [Memory.read, if_neg (by omega)]
      · rw [Memory.read, ih (Memory.wf_tail h), Memory.read]
        by_cases hj : d.1 = j
        · rw [if_pos hj, if_pos hj, if_neg (by omega)]
        · rw [if_neg hj, if_neg hj]

/-- A canonical memory is determined by what it reads as. -/
theorem Memory.eq_of_read_eq {m n : Memory} (hm : m.wf) (hn : n.wf) (h : ∀ k, m.read k = n.read k) : m = n := by
  induction m generalizing n with
  | nil =>
    cases n with
    | nil => rfl
    | cons d n =>
      have := h d.1
      rw [Memory.read, Memory.read, if_pos rfl] at this
      exact absurd this.symm (hn.2 d (by simp))
  | cons c m ih =>
    have hcm : Memory.read (c :: m) c.1 = c.2 := by rw [Memory.read, if_pos rfl]
    have hcb := hm.2 c (by simp)
    cases n with
    | nil => exact absurd (hcm ▸ h c.1) hcb
    | cons d n =>
      have hdn : Memory.read (d :: n) d.1 = d.2 := by rw [Memory.read, if_pos rfl]
      have hdb := hn.2 d (by simp)
      have key : c.1 = d.1 := by
        rcases lt_trichotomy c.1 d.1 with hlt | heq | hgt
        · refine absurd ?_ hcb
          rw [← hcm, h]
          refine Memory.read_of_lt_all fun x hx => ?_
          rcases List.mem_cons.1 hx with rfl | hx
          · exact hlt
          · exact lt_trans hlt (Memory.head_lt hn x hx)
        · exact heq
        · refine absurd ?_ hdb
          rw [← hdn, ← h]
          refine Memory.read_of_lt_all fun x hx => ?_
          rcases List.mem_cons.1 hx with rfl | hx
          · exact hgt
          · exact lt_trans hgt (Memory.head_lt hm x hx)
      have val : c.2 = d.2 := by rw [← hcm, h, key, hdn]
      obtain rfl : c = d := Prod.ext key val
      have tails : m = n := by
        refine ih (Memory.wf_tail hm) (Memory.wf_tail hn) fun k => ?_
        have hk := h k
        rw [Memory.read, Memory.read] at hk
        by_cases hck : c.1 = k
        · subst hck
          rw [Memory.read_of_lt_all (Memory.head_lt hm), Memory.read_of_lt_all (Memory.head_lt hn)]
        · rwa [if_neg hck, if_neg hck] at hk
      rw [tails]

/-- The cells of a list of bytes lie within its span. -/
theorem Memory.mem_ofBytes {bs : List Byte} {k : Nat} {c : Host.Cell} (h : c ∈ Memory.ofBytes k bs) :
    k ≤ c.1 ∧ c.1 < k + bs.length := by
  induction bs generalizing k with
  | nil => simp [Memory.ofBytes] at h
  | cons b bs ih =>
    rw [List.length_cons]
    rcases Memory.mem_putFront h with ⟨rfl, -⟩ | h
    · exact ⟨le_refl k, by show k < _; omega⟩
    · have := ih h
      omega

theorem Memory.wf_ofBytes (k : Nat) (bs : List Byte) : (Memory.ofBytes k bs).wf := by
  induction bs generalizing k with
  | nil => exact Memory.wf_nil
  | cons b bs ih => exact Memory.wf_putFront b (ih _) fun c hc => by have := Memory.mem_ofBytes hc; omega

theorem Memory.below_ofBytes (bs : List Byte) : (Memory.ofBytes 0 bs).below bs.length := fun c hc => by
  have := Memory.mem_ofBytes hc
  omega

/-- The memory of a list of bytes reads as the list. -/
theorem Memory.read_ofBytes (k : Nat) (bs : List Byte) (j : Nat) :
    (Memory.ofBytes k bs).read (k + j) = bs.getD j Memory.blank := by
  induction bs generalizing k j with
  | nil => simp [Memory.ofBytes]
  | cons b bs ih =>
    rw [Memory.ofBytes, Memory.read_putFront b fun c hc => by have := Memory.mem_ofBytes hc; omega]
    cases j with
    | zero => simp
    | succ j => rw [if_neg (by omega), show k + (j + 1) = k + 1 + j by omega, ih]; simp

end Sys2Proof
end

