-- ==== Sys2Proof/Laws/Operands.lean ====
section
/-! SUPPORT. The bit fields of Operands.lean and Flags.lean as arithmetic on numbers (R133). -/

namespace Sys2Proof.Machine

/-! ## Offsets -/

theorem romOffset_eq (a : Addr) : romOffset a = a.toNat % 0x4000 := by
  rw [romOffset, BitVec.extractLsb'_toNat]
  rfl

theorem ramOffset_eq (a : Addr) : ramOffset a = a.toNat % 0x2000 := by
  rw [ramOffset, BitVec.extractLsb'_toNat]
  rfl

theorem cellOffset_eq (a : Addr) : cellOffset a = a.toNat % 0x200 := by
  rw [cellOffset, BitVec.extractLsb'_toNat]
  rfl

theorem ramOffset_lt (a : Addr) : ramOffset a < ramBankSize := by
  rw [ramOffset_eq, ramBankSize]
  omega

theorem cellOffset_lt (a : Addr) : cellOffset a < 0x200 := by
  rw [cellOffset_eq]
  omega

/-! ## Fields of a byte -/

@[simp] theorem toNat_low1 (v : Byte) : (low1 v).toNat = v.toNat % 2 := BitVec.extractLsb'_toNat 0 1 v

@[simp] theorem toNat_low2 (v : Byte) : (low2 v).toNat = v.toNat % 4 := BitVec.extractLsb'_toNat 0 2 v

@[simp] theorem toNat_low4 (v : Byte) : (low4 v).toNat = v.toNat % 16 := BitVec.extractLsb'_toNat 0 4 v

@[simp] theorem toNat_low5 (v : Byte) : (low5 v).toNat = v.toNat % 32 := BitVec.extractLsb'_toNat 0 5 v

@[simp] theorem toNat_low7 (v : Byte) : (low7 v).toNat = v.toNat % 128 := BitVec.extractLsb'_toNat 0 7 v

theorem enableValue_eq (v : Byte) : enableValue v = decide (v.toNat % 16 = 10) := by
  rw [enableValue, Bool.eq_iff_iff, beq_iff_eq, decide_eq_true_iff, BitVec.toNat_eq, toNat_low4]
  rfl

theorem toNat_remapZero {n : Nat} (hn : 0 < n) (f : BitVec n) :
    (remapZero f).toNat = if f.toNat = 0 then 1 else f.toNat := by
  have h1 : (1 : Nat) < 2 ^ n := Nat.one_lt_two_pow (by omega)
  unfold remapZero
  by_cases h : f = 0#n
  · simp [h, Nat.mod_eq_of_lt h1]
  · rw [if_neg h, if_neg fun h0 => h (BitVec.eq_of_toNat_eq (by simpa using h0))]

/-- A remapped field is never 0. -/
theorem remapZero_ne_zero {n : Nat} (hn : 0 < n) (f : BitVec n) : (remapZero f).toNat ≠ 0 := by
  rw [toNat_remapZero hn]
  split <;> omega

/-! ## A field in its register: the field is loaded, the bits around it stay -/

theorem toNat_bank1SetLow5 (b : BitVec 9) (n : BitVec 5) :
    (bank1SetLow5 b n).toNat = b.toNat / 32 * 32 + n.toNat := by
  have := b.isLt
  have h : (bank1SetLow5 b n).toNat = (b.extractLsb' 5 4).toNat * 2 ^ 5 + n.toNat := toNat_append_eq _ _
  rw [h, BitVec.extractLsb'_toNat, Nat.shiftRight_eq_div_pow]
  omega

theorem toNat_bank1SetLow4 (b : BitVec 9) (n : BitVec 4) :
    (bank1SetLow4 b n).toNat = b.toNat / 16 * 16 + n.toNat := by
  have := b.isLt
  have h : (bank1SetLow4 b n).toNat = (b.extractLsb' 4 5).toNat * 2 ^ 4 + n.toNat := toNat_append_eq _ _
  rw [h, BitVec.extractLsb'_toNat, Nat.shiftRight_eq_div_pow]
  omega

theorem toNat_bank1SetLow7 (b : BitVec 9) (n : BitVec 7) :
    (bank1SetLow7 b n).toNat = b.toNat / 128 * 128 + n.toNat := by
  have := b.isLt
  have h : (bank1SetLow7 b n).toNat = (b.extractLsb' 7 2).toNat * 2 ^ 7 + n.toNat := toNat_append_eq _ _
  rw [h, BitVec.extractLsb'_toNat, Nat.shiftRight_eq_div_pow]
  omega

theorem toNat_bank1SetLow8 (b : BitVec 9) (n : BitVec 8) :
    (bank1SetLow8 b n).toNat = b.toNat / 256 * 256 + n.toNat := by
  have := b.isLt
  have h : (bank1SetLow8 b n).toNat = (b.extractLsb' 8 1).toNat * 2 ^ 8 + n.toNat := toNat_append_eq _ _
  rw [h, BitVec.extractLsb'_toNat, Nat.shiftRight_eq_div_pow]
  omega

theorem toNat_bank1SetBit8 (b : BitVec 9) (n : BitVec 1) :
    (bank1SetBit8 b n).toNat = n.toNat * 256 + b.toNat % 256 := by
  have h : (bank1SetBit8 b n).toNat = n.toNat * 2 ^ 8 + (b.extractLsb' 0 8).toNat := toNat_append_eq _ _
  rw [h, BitVec.extractLsb'_toNat]
  rfl

theorem toNat_bank1SetBits65 (b : BitVec 9) (n : BitVec 2) :
    (bank1SetBits65 b n).toNat = b.toNat / 128 * 128 + n.toNat * 32 + b.toNat % 32 := by
  have := b.isLt
  have h : (bank1SetBits65 b n).toNat = (b.extractLsb' 7 2 ++ n).toNat * 2 ^ 5 + (b.extractLsb' 0 5).toNat :=
    toNat_append_eq _ _
  rw [h, toNat_append_eq, BitVec.extractLsb'_toNat, BitVec.extractLsb'_toNat, Nat.shiftRight_eq_div_pow,
    Nat.shiftRight_eq_div_pow]
  omega

theorem toNat_ramselSetLow2 (r : BitVec 4) (n : BitVec 2) :
    (ramselSetLow2 r n).toNat = r.toNat / 4 * 4 + n.toNat := by
  have := r.isLt
  have h : (ramselSetLow2 r n).toNat = (r.extractLsb' 2 2).toNat * 2 ^ 2 + n.toNat := toNat_append_eq _ _
  rw [h, BitVec.extractLsb'_toNat, Nat.shiftRight_eq_div_pow]
  omega

end Sys2Proof.Machine
end

