-- ==== Sys2Proof/Laws/State.lean ====
section
/-! SUPPORT. What each update of a state leaves in each field, one lemma per field per update. -/

namespace Sys2Proof.Machine

@[simp] theorem State.setRegs_config (r : Regs) (s : State) : (s.setRegs r).config = s.config := rfl

@[simp] theorem State.setRegs_regs (r : Regs) (s : State) : (s.setRegs r).regs = r := rfl

@[simp] theorem State.setRegs_ram (r : Regs) (s : State) : (s.setRegs r).ram = s.ram := rfl

@[simp] theorem State.setRegs_master (r : Regs) (s : State) : (s.setRegs r).master = s.master := rfl

@[simp] theorem State.setRegs_last (r : Regs) (s : State) : (s.setRegs r).last = s.last := rfl

@[simp] theorem State.setRegs_clkIn (r : Regs) (s : State) : (s.setRegs r).clkIn = s.clkIn := rfl

@[simp] theorem State.setRegs_draws (r : Regs) (s : State) : (s.setRegs r).draws = s.draws := rfl

@[simp] theorem State.setRam_config (m : Memory) (s : State) : (s.setRam m).config = s.config := rfl

@[simp] theorem State.setRam_regs (m : Memory) (s : State) : (s.setRam m).regs = s.regs := rfl

@[simp] theorem State.setRam_ram (m : Memory) (s : State) : (s.setRam m).ram = m := rfl

@[simp] theorem State.setRam_master (m : Memory) (s : State) : (s.setRam m).master = s.master := rfl

@[simp] theorem State.setRam_last (m : Memory) (s : State) : (s.setRam m).last = s.last := rfl

@[simp] theorem State.setRam_clkIn (m : Memory) (s : State) : (s.setRam m).clkIn = s.clkIn := rfl

@[simp] theorem State.setRam_draws (m : Memory) (s : State) : (s.setRam m).draws = s.draws := rfl

@[simp] theorem State.respond_config (r : Response) (s : State) : (s.respond r).config = s.config := rfl

@[simp] theorem State.respond_regs (r : Response) (s : State) : (s.respond r).regs = s.regs := rfl

@[simp] theorem State.respond_ram (r : Response) (s : State) : (s.respond r).ram = s.ram := rfl

@[simp] theorem State.respond_master (r : Response) (s : State) : (s.respond r).master = s.master := rfl

@[simp] theorem State.respond_last (r : Response) (s : State) : (s.respond r).last = some r := rfl

@[simp] theorem State.respond_clkIn (r : Response) (s : State) : (s.respond r).clkIn = s.clkIn := rfl

@[simp] theorem State.respond_draws (r : Response) (s : State) : (s.respond r).draws = s.draws := rfl

@[simp] theorem State.setMaster_config (txs : List Transaction) (s : State) : (s.setMaster txs).config = s.config := rfl

@[simp] theorem State.setMaster_regs (txs : List Transaction) (s : State) : (s.setMaster txs).regs = s.regs := rfl

@[simp] theorem State.setMaster_ram (txs : List Transaction) (s : State) : (s.setMaster txs).ram = s.ram := rfl

@[simp] theorem State.setMaster_master (txs : List Transaction) (s : State) : (s.setMaster txs).master = txs := rfl

@[simp] theorem State.setMaster_last (txs : List Transaction) (s : State) : (s.setMaster txs).last = s.last := rfl

@[simp] theorem State.setMaster_clkIn (txs : List Transaction) (s : State) : (s.setMaster txs).clkIn = s.clkIn := rfl

@[simp] theorem State.setMaster_draws (txs : List Transaction) (s : State) : (s.setMaster txs).draws = s.draws := rfl

@[simp] theorem State.setClock_config (bs : List Byte) (n : Nat) (s : State) : (s.setClock bs n).config = s.config := rfl

@[simp] theorem State.setClock_regs (bs : List Byte) (n : Nat) (s : State) : (s.setClock bs n).regs = s.regs := rfl

@[simp] theorem State.setClock_ram (bs : List Byte) (n : Nat) (s : State) : (s.setClock bs n).ram = s.ram := rfl

@[simp] theorem State.setClock_master (bs : List Byte) (n : Nat) (s : State) : (s.setClock bs n).master = s.master := rfl

@[simp] theorem State.setClock_last (bs : List Byte) (n : Nat) (s : State) : (s.setClock bs n).last = s.last := rfl

@[simp] theorem State.setClock_clkIn (bs : List Byte) (n : Nat) (s : State) : (s.setClock bs n).clkIn = bs := rfl

@[simp] theorem State.setClock_draws (bs : List Byte) (n : Nat) (s : State) : (s.setClock bs n).draws = n := rfl

@[simp] theorem State.atLoad_config (c : Config) (m : Memory) : (State.atLoad c m).config = c := rfl

@[simp] theorem State.atLoad_regs (c : Config) (m : Memory) : (State.atLoad c m).regs = Regs.atLoad c := rfl

@[simp] theorem State.atLoad_ram (c : Config) (m : Memory) : (State.atLoad c m).ram = m := rfl

@[simp] theorem State.atLoad_master (c : Config) (m : Memory) : (State.atLoad c m).master = [] := rfl

@[simp] theorem State.atLoad_last (c : Config) (m : Memory) : (State.atLoad c m).last = none := rfl

@[simp] theorem State.atLoad_clkIn (c : Config) (m : Memory) : (State.atLoad c m).clkIn = [] := rfl

@[simp] theorem State.atLoad_draws (c : Config) (m : Memory) : (State.atLoad c m).draws = 0 := rfl

@[simp] theorem Regs.atLoad_ramEn (c : Config) : (Regs.atLoad c).ramEn = false := rfl

@[simp] theorem Regs.atLoad_bank1 (c : Config) : (Regs.atLoad c).bank1 = 1#9 := rfl

@[simp] theorem Regs.atLoad_sec (c : Config) : (Regs.atLoad c).sec = 0#2 := rfl

@[simp] theorem Regs.atLoad_mode (c : Config) : (Regs.atLoad c).mode = c.modeReset := rfl

@[simp] theorem Regs.atLoad_ramsel (c : Config) : (Regs.atLoad c).ramsel = 0#4 := rfl

end Sys2Proof.Machine
end

