-- ==== Sys2Proof/Laws/Ops.lean ====
section
/-! SUPPORT. What each shared operation of Ops.lean can do, said once: how a transaction ends, what a clock read uses up,
and the cases of the two RAM-window procedures. -/

namespace Sys2Proof.Machine

@[simp] theorem endRead_eq (v : Byte) (p : Port) (s : State) :
    endRead v p s = .next { s with last := some ⟨.ok, some v, p⟩ } := rfl

@[simp] theorem endWrite_eq (p : Port) (s : State) : endWrite p s = .next { s with last := some ⟨.ok, none, p⟩ } := rfl

@[simp] theorem raiseError_eq (e : Result) (s : State) :
    raiseError e s = .next { s with last := some ⟨e, none, .idle⟩ } := rfl

@[simp] theorem refuseConfiguration_eq (s : State) : refuseConfiguration s = .refused .illegalConfiguration := rfl

@[simp] theorem clockUsed_config (s : State) : (clockUsed s).config = s.config := by
  unfold clockUsed
  split <;> rfl

@[simp] theorem clockUsed_regs (s : State) : (clockUsed s).regs = s.regs := by
  unfold clockUsed
  split <;> rfl

@[simp] theorem clockUsed_ram (s : State) : (clockUsed s).ram = s.ram := by
  unfold clockUsed
  split <;> rfl

@[simp] theorem clockUsed_master (s : State) : (clockUsed s).master = s.master := by
  unfold clockUsed
  split <;> rfl

@[simp] theorem clockUsed_last (s : State) : (clockUsed s).last = s.last := by
  unfold clockUsed
  split <;> rfl

/-- A clock read uses the next supplied byte, or one free byte. -/
theorem clock_cases (s : State) :
    (∃ b bs, s.clkIn = b :: bs ∧ clockByte s = b ∧ clockUsed s = { s with clkIn := bs }) ∨
    (s.clkIn = [] ∧ clockByte s = Config.freeClockByte s.draws ∧ clockUsed s = { s with draws := s.draws + 1 }) := by
  cases h : s.clkIn with
  | nil =>
    refine .inr ⟨rfl, by simp [clockByte, h], ?_⟩
    simp [clockUsed, h, State.setClock]
  | cons b bs => exact .inl ⟨b, bs, rfl, by simp [clockByte, h], by simp [clockUsed, h, State.setClock]⟩

/-- The RAM-window read (R62): open bus behind a closed gate; else a cell, a clock byte, or open bus. -/
theorem ramWindowRead_cases (a : Addr) (s : State) :
    (ramGate s.config s.regs = false ∧
      ramWindowRead a s = .next { s with last := some ⟨.ok, some s.config.openBus, .idle⟩ }) ∨
    (ramGate s.config s.regs = true ∧
      ((∃ b o, ramTarget s.config s.regs a = .ram b o ∧
          ramWindowRead a s = .next { s with last := some ⟨.ok, some (ramRead s b o), .ram b o none⟩ }) ∨
       (∃ i, ramTarget s.config s.regs a = .clock i ∧
          ramWindowRead a s =
            .next { clockUsed s with last := some ⟨.ok, some (clockByte s), .clock i none⟩ }) ∨
       (ramTarget s.config s.regs a = .nothing ∧
          ramWindowRead a s = .next { s with last := some ⟨.ok, some s.config.openBus, .idle⟩ }))) := by
  unfold ramWindowRead
  cases hg : ramGate s.config s.regs with
  | false => exact .inl ⟨rfl, rfl⟩
  | true =>
    refine .inr ⟨rfl, ?_⟩
    cases ht : ramTarget s.config s.regs a with
    | ram b o => exact .inl ⟨b, o, rfl, rfl⟩
    | clock i => exact .inr (.inl ⟨i, rfl, rfl⟩)
    | nothing => exact .inr (.inr ⟨rfl, rfl⟩)

/-- The RAM-window write (R67): dropped behind a closed gate; else a cell, a byte routed to the clock, or dropped. -/
theorem ramWindowWrite_cases (a : Addr) (v : Byte) (s : State) :
    (ramGate s.config s.regs = false ∧
      ramWindowWrite a v s = .next { s with last := some ⟨.ok, none, .idle⟩ }) ∨
    (ramGate s.config s.regs = true ∧
      ((∃ b o, ramTarget s.config s.regs a = .ram b o ∧
          ramWindowWrite a v s =
            .next { s with
              ram := s.ram.write (b * ramBankSize + o) v, last := some ⟨.ok, none, .ram b o (some v)⟩ }) ∨
       (∃ i, ramTarget s.config s.regs a = .clock i ∧
          ramWindowWrite a v s = .next { s with last := some ⟨.ok, none, .clock i (some v)⟩ }) ∨
       (ramTarget s.config s.regs a = .nothing ∧
          ramWindowWrite a v s = .next { s with last := some ⟨.ok, none, .idle⟩ }))) := by
  unfold ramWindowWrite
  cases hg : ramGate s.config s.regs with
  | false => exact .inl ⟨rfl, rfl⟩
  | true =>
    refine .inr ⟨rfl, ?_⟩
    cases ht : ramTarget s.config s.regs a with
    | ram b o => exact .inl ⟨b, o, rfl, rfl⟩
    | clock i => exact .inr (.inl ⟨i, rfl, rfl⟩)
    | nothing => exact .inr (.inr ⟨rfl, rfl⟩)

/-- A RAM target is the mux's bank and an offset within the bank (R39, R40). -/
theorem ramTarget_ram {c : Config} {r : Regs} {a : Addr} {b o : Nat} (h : ramTarget c r a = .ram b o) :
    b = ramIdx c r ∧ o < ramBankSize := by
  have hr := ramOffset_lt a
  have hc := cellOffset_lt a
  unfold ramTarget at h
  unfold ramBankSize at hr ⊢
  split at h
  all_goals first
    | (simp only [RamTarget.ram.injEq] at h; omega)
    | (split at h
       · simp only [RamTarget.ram.injEq] at h; omega
       · first
         | simp at h
         | (split at h <;> simp at h))
    | simp at h

/-- The linear address of a cell the mux selects lies within the RAM banks (R32(d)). -/
theorem ram_linear_lt {c : Config} {r : Regs} {a : Addr} {b o : Nat} (hn : 0 < c.nRamBanks)
    (h : ramTarget c r a = .ram b o) : b * ramBankSize + o < c.nRamBanks * ramBankSize := by
  obtain ⟨rfl, ho⟩ := ramTarget_ram h
  have hb : ramIdx c r < c.nRamBanks := Nat.mod_lt _ hn
  calc ramIdx c r * ramBankSize + o < ramIdx c r * ramBankSize + ramBankSize := by omega
    _ = (ramIdx c r + 1) * ramBankSize := by ring
    _ ≤ c.nRamBanks * ramBankSize := Nat.mul_le_mul_right _ hb

end Sys2Proof.Machine
end

