-- ==== Sys2Proof/Laws/PerInstr.lean ====
section
/-! SUPPORT. Family RowOfTable: the word of a well-formed operation matches the row of spec/opcode_table.json the operation
comes from (R53, R54), one lemma per operation. -/

namespace Sys2Proof.Laws

/-! ## Masks over the fields of a word -/

/-- Keeping the top bits of an address is rounding it down. -/
theorem and_top_toNat {n : Nat} (k : Nat) (x : BitVec n) :
    (x &&& (BitVec.allOnes n <<< k)).toNat = x.toNat / 2 ^ k * 2 ^ k := by
  have h : x &&& (BitVec.allOnes n <<< k) = (x >>> k) <<< k := by
    ext i hi
    by_cases hk : i < k <;> simp [hk]
    congr 1
    omega
  rw [h, BitVec.toNat_shiftLeft, BitVec.toNat_ushiftRight, Nat.shiftRight_eq_div_pow, Nat.shiftLeft_eq]
  exact Nat.mod_eq_of_lt (lt_of_le_of_lt (Nat.div_mul_le_self _ _) x.isLt)

/-- Keeping one bit of an address. -/
theorem and_bit8 (a : Addr) : a &&& 0x0100#16 = if a.getLsbD 8 then 0x0100#16 else 0#16 := by
  ext i hi
  have : (0x0100#16)[i] = decide (i = 8) := by
    revert i
    decide
  rw [BitVec.getElem_and, this]
  by_cases h8 : i = 8
  · subst h8
    cases h : a.getLsbD 8 <;> simp_all [BitVec.getLsbD_eq_getElem]
  · split <;> simp [h8, this]

/-- An address in an aligned range agrees with its lower end under the range's mask. -/
theorem and_mask_of_within {a : Addr} (k : Nat) (mask lo : Addr) (hk : mask = BitVec.allOnes 16 <<< k)
    (h : a.toNat / 2 ^ k * 2 ^ k = lo.toNat) : a &&& mask = lo := by
  rw [BitVec.toNat_eq, hk, and_top_toNat, h]

/-- A row hits a packed word when its mask and value agree field by field. -/
theorem hits_packWord {r : Row} {f : Option Family} {d : Dir} {a : Addr} {v : Byte} (cm : BitVec 3) (dm : BitVec 1)
    (am : Addr) (cw : BitVec 3) (dw : BitVec 1) (aw : Addr) (hm : r.mask = cm ++ dm ++ am ++ 0#8)
    (hw : r.want = cw ++ dw ++ aw ++ 0#8) (hc : codeOfFamily f &&& cm = cw) (hd : bitOfDir d &&& dm = dw)
    (ha : a &&& am = aw) : r.hits (packWord f ⟨d, a, v⟩) = true := by
  have : packWord f ⟨d, a, v⟩ &&& r.mask = r.want := by
    rw [hm, hw, ← hc, ← hd, ← ha, packWord]
    show (codeOfFamily f ++ bitOfDir d ++ a ++ v : BitVec (3 + 1 + 16 + 8)) &&& (cm ++ dm ++ am ++ 0#8) = _
    rw [BitVec.and_append, BitVec.and_append, BitVec.and_append, BitVec.and_zero]
  simp [Row.hits, this]

namespace RowOfTable

/-- The word of a well-formed operation matches its row. -/
def Statement (i : Instr) : Prop := ∀ strap, WellFormed strap i = true → i.row.hits (encode strap i) = true

theorem cfgIllegal (d : Dir) (a : Addr) (v : Byte) : Statement (.cfgIllegal d a v) := by
  intro strap h
  simp [WellFormed, Instr.familyOk, Instr.addrOk, Instr.dataOk] at h
  refine hits_packWord (d := d) 7#3 0#1 0x0000#16 4#3 0#1 0x0000#16 rfl rfl (by rw [h.1]; rfl) (by simp) (by simp)

theorem rdRom0 (a : Addr) : Statement (.rdRom0 a) := by
  intro strap h
  simp [WellFormed, Instr.familyOk, Instr.addrOk, Instr.dataOk, within] at h
  refine hits_packWord (d := .read) 0#3 1#1 0xC000#16 0#3 0#1 0x0000#16 rfl rfl (by simp) rfl (and_mask_of_within 14 _ _ (by decide) ?_)
  simp
  omega

theorem rdRomX (a : Addr) : Statement (.rdRomX a) := by
  intro strap h
  simp [WellFormed, Instr.familyOk, Instr.addrOk, Instr.dataOk, within] at h
  refine hits_packWord (d := .read) 0#3 1#1 0xC000#16 0#3 0#1 0x4000#16 rfl rfl (by simp) rfl (and_mask_of_within 14 _ _ (by decide) ?_)
  simp
  omega

theorem rdInv8 (a : Addr) : Statement (.rdInv8 a) := by
  intro strap h
  simp [WellFormed, Instr.familyOk, Instr.addrOk, Instr.dataOk, within] at h
  refine hits_packWord (d := .read) 0#3 1#1 0xE000#16 0#3 0#1 0x8000#16 rfl rfl (by simp) rfl (and_mask_of_within 13 _ _ (by decide) ?_)
  simp
  omega

theorem rdInvC (a : Addr) : Statement (.rdInvC a) := by
  intro strap h
  simp [WellFormed, Instr.familyOk, Instr.addrOk, Instr.dataOk, within] at h
  refine hits_packWord (d := .read) 0#3 1#1 0xC000#16 0#3 0#1 0xC000#16 rfl rfl (by simp) rfl (and_mask_of_within 14 _ _ (by decide) ?_)
  simp
  omega

theorem wrInv8 (a : Addr) (v : Byte) : Statement (.wrInv8 a v) := by
  intro strap h
  simp [WellFormed, Instr.familyOk, Instr.addrOk, Instr.dataOk, within] at h
  refine hits_packWord (d := .write) 0#3 1#1 0xE000#16 0#3 1#1 0x8000#16 rfl rfl (by simp) rfl (and_mask_of_within 13 _ _ (by decide) ?_)
  simp
  omega

theorem wrInvC (a : Addr) (v : Byte) : Statement (.wrInvC a v) := by
  intro strap h
  simp [WellFormed, Instr.familyOk, Instr.addrOk, Instr.dataOk, within] at h
  refine hits_packWord (d := .write) 0#3 1#1 0xC000#16 0#3 1#1 0xC000#16 rfl rfl (by simp) rfl (and_mask_of_within 14 _ _ (by decide) ?_)
  simp
  omega

theorem wrNmRom (a : Addr) (v : Byte) : Statement (.wrNmRom a v) := by
  intro strap h
  simp [WellFormed, Instr.familyOk, Instr.addrOk, Instr.dataOk, within] at h
  refine hits_packWord (d := .write) 7#3 1#1 0x8000#16 0#3 1#1 0x0000#16 rfl rfl (by rw [h.1]; rfl) rfl (and_mask_of_within 15 _ _ (by decide) ?_)
  simp
  omega

theorem wrNmRam (a : Addr) (v : Byte) : Statement (.wrNmRam a v) := by
  intro strap h
  simp [WellFormed, Instr.familyOk, Instr.addrOk, Instr.dataOk, within] at h
  refine hits_packWord (d := .write) 7#3 1#1 0xE000#16 0#3 1#1 0xA000#16 rfl rfl (by rw [h.1]; rfl) rfl (and_mask_of_within 13 _ _ (by decide) ?_)
  simp
  omega

theorem rdRamNm (a : Addr) : Statement (.rdRamNm a) := by
  intro strap h
  simp [WellFormed, Instr.familyOk, Instr.addrOk, Instr.dataOk, within] at h
  refine hits_packWord (d := .read) 7#3 1#1 0xE000#16 0#3 0#1 0xA000#16 rfl rfl (by rw [h.1]; rfl) rfl (and_mask_of_within 13 _ _ (by decide) ?_)
  simp
  omega

theorem rdRamF1 (a : Addr) : Statement (.rdRamF1 a) := by
  intro strap h
  simp [WellFormed, Instr.familyOk, Instr.addrOk, Instr.dataOk, within] at h
  refine hits_packWord (d := .read) 7#3 1#1 0xE000#16 1#3 0#1 0xA000#16 rfl rfl (by rw [h.1]; rfl) rfl (and_mask_of_within 13 _ _ (by decide) ?_)
  simp
  omega

theorem rdRamF2 (a : Addr) : Statement (.rdRamF2 a) := by
  intro strap h
  simp [WellFormed, Instr.familyOk, Instr.addrOk, Instr.dataOk, within] at h
  refine hits_packWord (d := .read) 7#3 1#1 0xE000#16 2#3 0#1 0xA000#16 rfl rfl (by rw [h.1]; rfl) rfl (and_mask_of_within 13 _ _ (by decide) ?_)
  simp
  omega

theorem rdRamF3 (a : Addr) : Statement (.rdRamF3 a) := by
  intro strap h
  simp [WellFormed, Instr.familyOk, Instr.addrOk, Instr.dataOk, within] at h
  refine hits_packWord (d := .read) 7#3 1#1 0xE000#16 3#3 0#1 0xA000#16 rfl rfl (by rw [h.1]; rfl) rfl (and_mask_of_within 13 _ _ (by decide) ?_)
  simp
  omega

theorem rdRamF5 (a : Addr) : Statement (.rdRamF5 a) := by
  intro strap h
  simp [WellFormed, Instr.familyOk, Instr.addrOk, Instr.dataOk, within] at h
  refine hits_packWord (d := .read) 7#3 1#1 0xE000#16 5#3 0#1 0xA000#16 rfl rfl (by rw [h.1]; rfl) rfl (and_mask_of_within 13 _ _ (by decide) ?_)
  simp
  omega

theorem rdRamF6 (a : Addr) : Statement (.rdRamF6 a) := by
  intro strap h
  simp [WellFormed, Instr.familyOk, Instr.addrOk, Instr.dataOk, within] at h
  refine hits_packWord (d := .read) 7#3 1#1 0xE000#16 6#3 0#1 0xA000#16 rfl rfl (by rw [h.1]; rfl) rfl (and_mask_of_within 13 _ _ (by decide) ?_)
  simp
  omega

theorem rdRamF7 (a : Addr) : Statement (.rdRamF7 a) := by
  intro strap h
  simp [WellFormed, Instr.familyOk, Instr.addrOk, Instr.dataOk, within] at h
  refine hits_packWord (d := .read) 7#3 1#1 0xE000#16 7#3 0#1 0xA000#16 rfl rfl (by rw [h.1]; rfl) rfl (and_mask_of_within 13 _ _ (by decide) ?_)
  simp
  omega

theorem wrF1RamEn (a : Addr) (v : Byte) : Statement (.wrF1RamEn a v) := by
  intro strap h
  simp [WellFormed, Instr.familyOk, Instr.addrOk, Instr.dataOk, within] at h
  refine hits_packWord (d := .write) 7#3 1#1 0xE000#16 1#3 1#1 0x0000#16 rfl rfl (by rw [h.1]; rfl) rfl (and_mask_of_within 13 _ _ (by decide) ?_)
  simp
  omega

theorem wrF1BankLo (a : Addr) (v : Byte) : Statement (.wrF1BankLo a v) := by
  intro strap h
  simp [WellFormed, Instr.familyOk, Instr.addrOk, Instr.dataOk, within] at h
  refine hits_packWord (d := .write) 7#3 1#1 0xE000#16 1#3 1#1 0x2000#16 rfl rfl (by rw [h.1]; rfl) rfl (and_mask_of_within 13 _ _ (by decide) ?_)
  simp
  omega

theorem wrF1Sec (a : Addr) (v : Byte) : Statement (.wrF1Sec a v) := by
  intro strap h
  simp [WellFormed, Instr.familyOk, Instr.addrOk, Instr.dataOk, within] at h
  refine hits_packWord (d := .write) 7#3 1#1 0xE000#16 1#3 1#1 0x4000#16 rfl rfl (by rw [h.1]; rfl) rfl (and_mask_of_within 13 _ _ (by decide) ?_)
  simp
  omega

theorem wrF1Mode (a : Addr) (v : Byte) : Statement (.wrF1Mode a v) := by
  intro strap h
  simp [WellFormed, Instr.familyOk, Instr.addrOk, Instr.dataOk, within] at h
  refine hits_packWord (d := .write) 7#3 1#1 0xE000#16 1#3 1#1 0x6000#16 rfl rfl (by rw [h.1]; rfl) rfl (and_mask_of_within 13 _ _ (by decide) ?_)
  simp
  omega

theorem wrF1Ram (a : Addr) (v : Byte) : Statement (.wrF1Ram a v) := by
  intro strap h
  simp [WellFormed, Instr.familyOk, Instr.addrOk, Instr.dataOk, within] at h
  refine hits_packWord (d := .write) 7#3 1#1 0xE000#16 1#3 1#1 0xA000#16 rfl rfl (by rw [h.1]; rfl) rfl (and_mask_of_within 13 _ _ (by decide) ?_)
  simp
  omega

theorem wrF2RamEn (a : Addr) (v : Byte) : Statement (.wrF2RamEn a v) := by
  intro strap h
  simp [WellFormed, Instr.familyOk, Instr.addrOk, Instr.dataOk, within] at h
  have hk : a &&& 0xE000#16 = 0x0000#16 := and_mask_of_within 13 _ _ (by decide) (by simp; omega)
  refine hits_packWord (d := .write) 7#3 1#1 0xE100#16 2#3 1#1 0x0000#16 rfl rfl (by rw [h.1]; rfl) rfl ?_
  rw [show (0xE100#16 : Addr) = 0xE000#16 ||| 0x0100#16 by decide, BitVec.and_or_distrib_left, hk, and_bit8]
  simp [h]

theorem wrF2NoneA (a : Addr) (v : Byte) : Statement (.wrF2NoneA a v) := by
  intro strap h
  simp [WellFormed, Instr.familyOk, Instr.addrOk, Instr.dataOk, within] at h
  have hk : a &&& 0xE000#16 = 0x0000#16 := and_mask_of_within 13 _ _ (by decide) (by simp; omega)
  refine hits_packWord (d := .write) 7#3 1#1 0xE100#16 2#3 1#1 0x0100#16 rfl rfl (by rw [h.1]; rfl) rfl ?_
  rw [show (0xE100#16 : Addr) = 0xE000#16 ||| 0x0100#16 by decide, BitVec.and_or_distrib_left, hk, and_bit8]
  simp [h]

theorem wrF2NoneB (a : Addr) (v : Byte) : Statement (.wrF2NoneB a v) := by
  intro strap h
  simp [WellFormed, Instr.familyOk, Instr.addrOk, Instr.dataOk, within] at h
  have hk : a &&& 0xE000#16 = 0x2000#16 := and_mask_of_within 13 _ _ (by decide) (by simp; omega)
  refine hits_packWord (d := .write) 7#3 1#1 0xE100#16 2#3 1#1 0x2000#16 rfl rfl (by rw [h.1]; rfl) rfl ?_
  rw [show (0xE100#16 : Addr) = 0xE000#16 ||| 0x0100#16 by decide, BitVec.and_or_distrib_left, hk, and_bit8]
  simp [h]

theorem wrF2Bank (a : Addr) (v : Byte) : Statement (.wrF2Bank a v) := by
  intro strap h
  simp [WellFormed, Instr.familyOk, Instr.addrOk, Instr.dataOk, within] at h
  have hk : a &&& 0xE000#16 = 0x2000#16 := and_mask_of_within 13 _ _ (by decide) (by simp; omega)
  refine hits_packWord (d := .write) 7#3 1#1 0xE100#16 2#3 1#1 0x2100#16 rfl rfl (by rw [h.1]; rfl) rfl ?_
  rw [show (0xE100#16 : Addr) = 0xE000#16 ||| 0x0100#16 by decide, BitVec.and_or_distrib_left, hk, and_bit8]
  simp [h]

theorem wrF2NoneC (a : Addr) (v : Byte) : Statement (.wrF2NoneC a v) := by
  intro strap h
  simp [WellFormed, Instr.familyOk, Instr.addrOk, Instr.dataOk, within] at h
  refine hits_packWord (d := .write) 7#3 1#1 0xC000#16 2#3 1#1 0x4000#16 rfl rfl (by rw [h.1]; rfl) rfl (and_mask_of_within 14 _ _ (by decide) ?_)
  simp
  omega

theorem wrF2Ram (a : Addr) (v : Byte) : Statement (.wrF2Ram a v) := by
  intro strap h
  simp [WellFormed, Instr.familyOk, Instr.addrOk, Instr.dataOk, within] at h
  refine hits_packWord (d := .write) 7#3 1#1 0xE000#16 2#3 1#1 0xA000#16 rfl rfl (by rw [h.1]; rfl) rfl (and_mask_of_within 13 _ _ (by decide) ?_)
  simp
  omega

theorem wrF3RamEn (a : Addr) (v : Byte) : Statement (.wrF3RamEn a v) := by
  intro strap h
  simp [WellFormed, Instr.familyOk, Instr.addrOk, Instr.dataOk, within] at h
  refine hits_packWord (d := .write) 7#3 1#1 0xE000#16 3#3 1#1 0x0000#16 rfl rfl (by rw [h.1]; rfl) rfl (and_mask_of_within 13 _ _ (by decide) ?_)
  simp
  omega

theorem wrF3Bank (a : Addr) (v : Byte) : Statement (.wrF3Bank a v) := by
  intro strap h
  simp [WellFormed, Instr.familyOk, Instr.addrOk, Instr.dataOk, within] at h
  refine hits_packWord (d := .write) 7#3 1#1 0xE000#16 3#3 1#1 0x2000#16 rfl rfl (by rw [h.1]; rfl) rfl (and_mask_of_within 13 _ _ (by decide) ?_)
  simp
  omega

theorem wrF3RamRtc (a : Addr) (v : Byte) : Statement (.wrF3RamRtc a v) := by
  intro strap h
  simp [WellFormed, Instr.familyOk, Instr.addrOk, Instr.dataOk, within] at h
  refine hits_packWord (d := .write) 7#3 1#1 0xE000#16 3#3 1#1 0x4000#16 rfl rfl (by rw [h.1]; rfl) rfl (and_mask_of_within 13 _ _ (by decide) ?_)
  simp
  omega

theorem wrF3Latch (a : Addr) (v : Byte) : Statement (.wrF3Latch a v) := by
  intro strap h
  simp [WellFormed, Instr.familyOk, Instr.addrOk, Instr.dataOk, within] at h
  refine hits_packWord (d := .write) 7#3 1#1 0xE000#16 3#3 1#1 0x6000#16 rfl rfl (by rw [h.1]; rfl) rfl (and_mask_of_within 13 _ _ (by decide) ?_)
  simp
  omega

theorem wrF3Ram (a : Addr) (v : Byte) : Statement (.wrF3Ram a v) := by
  intro strap h
  simp [WellFormed, Instr.familyOk, Instr.addrOk, Instr.dataOk, within] at h
  refine hits_packWord (d := .write) 7#3 1#1 0xE000#16 3#3 1#1 0xA000#16 rfl rfl (by rw [h.1]; rfl) rfl (and_mask_of_within 13 _ _ (by decide) ?_)
  simp
  omega

theorem wrF5RamEn (a : Addr) (v : Byte) : Statement (.wrF5RamEn a v) := by
  intro strap h
  simp [WellFormed, Instr.familyOk, Instr.addrOk, Instr.dataOk, within] at h
  refine hits_packWord (d := .write) 7#3 1#1 0xE000#16 5#3 1#1 0x0000#16 rfl rfl (by rw [h.1]; rfl) rfl (and_mask_of_within 13 _ _ (by decide) ?_)
  simp
  omega

theorem wrF5BankLo (a : Addr) (v : Byte) : Statement (.wrF5BankLo a v) := by
  intro strap h
  simp [WellFormed, Instr.familyOk, Instr.addrOk, Instr.dataOk, within] at h
  refine hits_packWord (d := .write) 7#3 1#1 0xF000#16 5#3 1#1 0x2000#16 rfl rfl (by rw [h.1]; rfl) rfl (and_mask_of_within 12 _ _ (by decide) ?_)
  simp
  omega

theorem wrF5BankHi (a : Addr) (v : Byte) : Statement (.wrF5BankHi a v) := by
  intro strap h
  simp [WellFormed, Instr.familyOk, Instr.addrOk, Instr.dataOk, within] at h
  refine hits_packWord (d := .write) 7#3 1#1 0xF000#16 5#3 1#1 0x3000#16 rfl rfl (by rw [h.1]; rfl) rfl (and_mask_of_within 12 _ _ (by decide) ?_)
  simp
  omega

theorem wrF5RamB (a : Addr) (v : Byte) : Statement (.wrF5RamB a v) := by
  intro strap h
  simp [WellFormed, Instr.familyOk, Instr.addrOk, Instr.dataOk, within] at h
  refine hits_packWord (d := .write) 7#3 1#1 0xE000#16 5#3 1#1 0x4000#16 rfl rfl (by rw [h.1]; rfl) rfl (and_mask_of_within 13 _ _ (by decide) ?_)
  simp
  omega

theorem wrF5None (a : Addr) (v : Byte) : Statement (.wrF5None a v) := by
  intro strap h
  simp [WellFormed, Instr.familyOk, Instr.addrOk, Instr.dataOk, within] at h
  refine hits_packWord (d := .write) 7#3 1#1 0xE000#16 5#3 1#1 0x6000#16 rfl rfl (by rw [h.1]; rfl) rfl (and_mask_of_within 13 _ _ (by decide) ?_)
  simp
  omega

theorem wrF5Ram (a : Addr) (v : Byte) : Statement (.wrF5Ram a v) := by
  intro strap h
  simp [WellFormed, Instr.familyOk, Instr.addrOk, Instr.dataOk, within] at h
  refine hits_packWord (d := .write) 7#3 1#1 0xE000#16 5#3 1#1 0xA000#16 rfl rfl (by rw [h.1]; rfl) rfl (and_mask_of_within 13 _ _ (by decide) ?_)
  simp
  omega

theorem wrF6Reg (a : Addr) (v : Byte) : Statement (.wrF6Reg a v) := by
  intro strap h
  simp [WellFormed, Instr.familyOk, Instr.addrOk, Instr.dataOk, within] at h
  refine hits_packWord (d := .write) 7#3 1#1 0x8000#16 6#3 1#1 0x0000#16 rfl rfl (by rw [h.1]; rfl) rfl (and_mask_of_within 15 _ _ (by decide) ?_)
  simp
  omega

theorem wrF6Ram (a : Addr) (v : Byte) : Statement (.wrF6Ram a v) := by
  intro strap h
  simp [WellFormed, Instr.familyOk, Instr.addrOk, Instr.dataOk, within] at h
  refine hits_packWord (d := .write) 7#3 1#1 0xE000#16 6#3 1#1 0xA000#16 rfl rfl (by rw [h.1]; rfl) rfl (and_mask_of_within 13 _ _ (by decide) ?_)
  simp
  omega

theorem wrF7Reg (a : Addr) (v : Byte) : Statement (.wrF7Reg a v) := by
  intro strap h
  simp [WellFormed, Instr.familyOk, Instr.addrOk, Instr.dataOk, within] at h
  refine hits_packWord (d := .write) 7#3 1#1 0x8000#16 7#3 1#1 0x0000#16 rfl rfl (by rw [h.1]; rfl) rfl (and_mask_of_within 15 _ _ (by decide) ?_)
  simp
  omega

theorem wrF7Ram (a : Addr) (v : Byte) : Statement (.wrF7Ram a v) := by
  intro strap h
  simp [WellFormed, Instr.familyOk, Instr.addrOk, Instr.dataOk, within] at h
  refine hits_packWord (d := .write) 7#3 1#1 0xE000#16 7#3 1#1 0xA000#16 rfl rfl (by rw [h.1]; rfl) rfl (and_mask_of_within 13 _ _ (by decide) ?_)
  simp
  omega

end RowOfTable

end Sys2Proof.Laws
end

