-- ==== Sys2Proof/Laws/Step.lean ====
section
/-! SUPPORT. A run, unrolled one step at a time: what `runSteps` and `issueAll` do after a step whose outcome is known. -/

namespace Sys2Proof.Machine

theorem run_succ_of_next (M : Host.Core) {n : Nat} {s t : M.State} (h : M.step s = .next t) :
    M.run (n + 1) s = M.run n t := by simp only [Host.Core.run, h]

theorem run_succ_of_refused (M : Host.Core) {n : Nat} {s : M.State} {r : M.Refusal} (h : M.step s = .refused r) :
    M.run (n + 1) s = .refused r := by simp only [Host.Core.run, h]

@[simp] theorem runSteps_zero (s : State) : runSteps 0 s = .next s := rfl

theorem runSteps_succ_of_next {n : Nat} {s t : State} (h : step s = .next t) : runSteps (n + 1) s = runSteps n t :=
  run_succ_of_next Sys2Proof.core h

theorem runSteps_succ_of_refused {n : Nat} {s : State} {r : Refusal} (h : step s = .refused r) :
    runSteps (n + 1) s = .refused r := run_succ_of_refused Sys2Proof.core h

/-- With nothing presented a step changes nothing. -/
theorem step_of_no_transaction {s : State} (h : s.master = []) : step s = .next s := by
  simp [step, takeTransaction, h]

/-- Issuing a list is a step of its first transaction, then issuing the rest. -/
theorem issueAll_cons_of_next {tx : Transaction} {txs : List Transaction} {s t : State}
    (h : step { s with master := tx :: txs } = .next t) (ht : t.master = txs) :
    issueAll (tx :: txs) s = issueAll txs t := by
  subst ht
  exact runSteps_succ_of_next h

@[simp] theorem issueAll_nil (s : State) : issueAll [] s = .next { s with master := [] } := rfl

end Sys2Proof.Machine
end

