-- ==== Sys2Proof/Tests/Slice0.lean ====
section
/-! SUPPORT. Tests of the model, and witnesses for the statements. Words, states before and expected results are the spec's
own (95_test_vectors.md, 96_test_vectors_by_family.md). The name of a vector stands in the comment of its test. Test image
`P(N)` and the state tuple are those of 95_test_vectors.md section 1. -/

namespace Sys2Proof.Tests

open Sys2Proof.Machine

/-! ## Conventions (95_test_vectors.md section 1) -/

/-- Banks of the image `P(N)`: the bytes at offsets 0x0000, 0x0001 and 0x3FFF of each. -/
def pBanks : List Nat → Memory
  | [] => []
  | b :: bs =>
    Memory.cons (b * 0x4000) (BitVec.ofNat 8 b) (Memory.cons (b * 0x4000 + 1) (BitVec.ofNat 8 (b / 256))
      (Memory.cons (b * 0x4000 + 0x3FFF) (BitVec.ofNat 8 b ^^^ 0xFF#8) (pBanks bs)))

/-- A cartridge of a family with an image of `n` banks, of which the listed ones hold what `P(n)` holds. -/
def cart (f : Family) (n : Nat) (banks : List Nat) : Config :=
  { Config.specDefaults with family := some f, imageLen := n * 0x4000, image := pBanks banks }

/-- The same cartridge under `AT_WRITE`. -/
def atWrite (c : Config) : Config := { c with secBinding := .atWrite }

/-- The same cartridge with RAM (`HAS_RAM`). -/
def withRam (c : Config) : Config := { c with hasRam := true }

/-- The load state of a cartridge with the registers of a state tuple `(ram_en, bank1, sec, mode, ramsel)`. -/
def st (c : Config) (e : Bool) (b : BitVec 9) (x : BitVec 2) (m : Bool) (r : BitVec 4) : State :=
  (State.atLoad c []).setRegs ⟨e, b, x, m, r⟩

/-- The next state, if there is one. -/
def nextOf : Host.Outcome State Fault Refusal → Option State
  | .next s => some s
  | .fault _ => none
  | .refused _ => none

/-- The state after the transaction of the word `T`. -/
def run (s : State) (w : Nat) : Option State := nextOf (step (s.withFetchWord 28 w))

/-- The response to the transaction of the word `T`: result and byte. -/
def ans (s : State) (w : Nat) : Option (Result × Option Byte) :=
  ((run s w).bind State.last).map (fun r => (r.result, r.rdata))

/-- The registers after the transaction of the word `T`. -/
def regsOf (s : State) (w : Nat) : Option Regs := (run s w).map State.regs

/-- The RAM after the transaction of the word `T`. -/
def ramOf (s : State) (w : Nat) : Option Memory := (run s w).map State.ram

/-- What the transaction of the word `T` addresses. -/
def portOf (s : State) (w : Nat) : Option Port := ((run s w).bind State.last).map Response.port

/-! ## Decoding -/

/-- The words of 95_test_vectors.md section 3.1 (reads). -/
theorem test_decode_reads :
    decodeTableWord 28 0x2000000 = some (.rdRom0 0x0000#16) ∧
    decodeTableWord 28 0x23FFF00 = some (.rdRom0 0x3FFF#16) ∧
    decodeTableWord 28 0x2400000 = some (.rdRomX 0x4000#16) ∧
    decodeTableWord 28 0x27FFF00 = some (.rdRomX 0x7FFF#16) ∧
    decodeTableWord 28 0x2800000 = some (.rdInv8 0x8000#16) ∧
    decodeTableWord 28 0x29FFF00 = some (.rdInv8 0x9FFF#16) ∧
    decodeTableWord 28 0x2A00000 = some (.rdRamF1 0xA000#16) ∧
    decodeTableWord 28 0x2BFFF00 = some (.rdRamF1 0xBFFF#16) ∧
    decodeTableWord 28 0x2C00000 = some (.rdInvC 0xC000#16) ∧
    decodeTableWord 28 0x2FFFF00 = some (.rdInvC 0xFFFF#16) ∧
    decodeTableWord 28 0x0A00000 = some (.rdRamNm 0xA000#16) ∧
    decodeTableWord 28 0x4A1FF00 = some (.rdRamF2 0xA1FF#16) ∧
    decodeTableWord 28 0x6B00000 = some (.rdRamF3 0xB000#16) ∧
    decodeTableWord 28 0xABFFF00 = some (.rdRamF5 0xBFFF#16) ∧
    decodeTableWord 28 0xCA00000 = some (.rdRamF6 0xA000#16) ∧
    decodeTableWord 28 0xEA00000 = some (.rdRamF7 0xA000#16) := by
  decide

/-- The words of 95_test_vectors.md section 3.1 (writes, nomapper). -/
theorem test_decode_writes_nomapper :
    decodeTableWord 28 0x10000FF = some (.wrNmRom 0x0000#16 0xFF#8) ∧
    decodeTableWord 28 0x17FFF01 = some (.wrNmRom 0x7FFF#16 0x01#8) ∧
    decodeTableWord 28 0x1A000AB = some (.wrNmRam 0xA000#16 0xAB#8) := by
  decide

/-- The words of 95_test_vectors.md section 3.1 (writes, family1). -/
theorem test_decode_writes_family1 :
    decodeTableWord 28 0x300000A = some (.wrF1RamEn 0x0000#16 0x0A#8) ∧
    decodeTableWord 28 0x31FFF0A = some (.wrF1RamEn 0x1FFF#16 0x0A#8) ∧
    decodeTableWord 28 0x3200005 = some (.wrF1BankLo 0x2000#16 0x05#8) ∧
    decodeTableWord 28 0x33FFF05 = some (.wrF1BankLo 0x3FFF#16 0x05#8) ∧
    decodeTableWord 28 0x3400003 = some (.wrF1Sec 0x4000#16 0x03#8) ∧
    decodeTableWord 28 0x35FFF03 = some (.wrF1Sec 0x5FFF#16 0x03#8) ∧
    decodeTableWord 28 0x3600001 = some (.wrF1Mode 0x6000#16 0x01#8) ∧
    decodeTableWord 28 0x37FFF01 = some (.wrF1Mode 0x7FFF#16 0x01#8) ∧
    decodeTableWord 28 0x3800000 = some (.wrInv8 0x8000#16 0x00#8) ∧
    decodeTableWord 28 0x39FFF00 = some (.wrInv8 0x9FFF#16 0x00#8) ∧
    decodeTableWord 28 0x3A00077 = some (.wrF1Ram 0xA000#16 0x77#8) ∧
    decodeTableWord 28 0x3BFFF77 = some (.wrF1Ram 0xBFFF#16 0x77#8) ∧
    decodeTableWord 28 0x3C00000 = some (.wrInvC 0xC000#16 0x00#8) ∧
    decodeTableWord 28 0x3FFFFFF = some (.wrInvC 0xFFFF#16 0xFF#8) := by
  decide

/-- The words of 95_test_vectors.md section 3.1 (writes, family2). -/
theorem test_decode_writes_family2 :
    decodeTableWord 28 0x500000A = some (.wrF2RamEn 0x0000#16 0x0A#8) ∧
    decodeTableWord 28 0x500FF0A = some (.wrF2RamEn 0x00FF#16 0x0A#8) ∧
    decodeTableWord 28 0x501000A = some (.wrF2NoneA 0x0100#16 0x0A#8) ∧
    decodeTableWord 28 0x51EFF0A = some (.wrF2RamEn 0x1EFF#16 0x0A#8) ∧
    decodeTableWord 28 0x51FFF0A = some (.wrF2NoneA 0x1FFF#16 0x0A#8) ∧
    decodeTableWord 28 0x5200003 = some (.wrF2NoneB 0x2000#16 0x03#8) ∧
    decodeTableWord 28 0x520FF03 = some (.wrF2NoneB 0x20FF#16 0x03#8) ∧
    decodeTableWord 28 0x5210003 = some (.wrF2Bank 0x2100#16 0x03#8) ∧
    decodeTableWord 28 0x53EFF03 = some (.wrF2NoneB 0x3EFF#16 0x03#8) ∧
    decodeTableWord 28 0x53FFF03 = some (.wrF2Bank 0x3FFF#16 0x03#8) ∧
    decodeTableWord 28 0x5400001 = some (.wrF2NoneC 0x4000#16 0x01#8) ∧
    decodeTableWord 28 0x57FFF01 = some (.wrF2NoneC 0x7FFF#16 0x01#8) ∧
    decodeTableWord 28 0x5A000AB = some (.wrF2Ram 0xA000#16 0xAB#8) := by
  decide

/-- The words of 95_test_vectors.md section 3.1 (writes, family3). -/
theorem test_decode_writes_family3 :
    decodeTableWord 28 0x700000A = some (.wrF3RamEn 0x0000#16 0x0A#8) ∧
    decodeTableWord 28 0x7200045 = some (.wrF3Bank 0x2000#16 0x45#8) ∧
    decodeTableWord 28 0x7400008 = some (.wrF3RamRtc 0x4000#16 0x08#8) ∧
    decodeTableWord 28 0x7600001 = some (.wrF3Latch 0x6000#16 0x01#8) ∧
    decodeTableWord 28 0x7A00055 = some (.wrF3Ram 0xA000#16 0x55#8) := by
  decide

/-- The words of 95_test_vectors.md section 3.1 (writes, family5). -/
theorem test_decode_writes_family5 :
    decodeTableWord 28 0xB00000A = some (.wrF5RamEn 0x0000#16 0x0A#8) ∧
    decodeTableWord 28 0xB200042 = some (.wrF5BankLo 0x2000#16 0x42#8) ∧
    decodeTableWord 28 0xB2FFF42 = some (.wrF5BankLo 0x2FFF#16 0x42#8) ∧
    decodeTableWord 28 0xB300001 = some (.wrF5BankHi 0x3000#16 0x01#8) ∧
    decodeTableWord 28 0xB3FFF01 = some (.wrF5BankHi 0x3FFF#16 0x01#8) ∧
    decodeTableWord 28 0xB40000F = some (.wrF5RamB 0x4000#16 0x0F#8) ∧
    decodeTableWord 28 0xB600001 = some (.wrF5None 0x6000#16 0x01#8) ∧
    decodeTableWord 28 0xBBFFF99 = some (.wrF5Ram 0xBFFF#16 0x99#8) := by
  decide

/-- The words of 95_test_vectors.md section 3.1 (writes, family6). -/
theorem test_decode_writes_family6 :
    decodeTableWord 28 0xD00000A = some (.wrF6Reg 0x0000#16 0x0A#8) ∧
    decodeTableWord 28 0xD7FFF00 = some (.wrF6Reg 0x7FFF#16 0x00#8) ∧
    decodeTableWord 28 0xDA00011 = some (.wrF6Ram 0xA000#16 0x11#8) ∧
    decodeTableWord 28 0xD800000 = some (.wrInv8 0x8000#16 0x00#8) := by
  decide

/-- The words of 95_test_vectors.md section 3.1 (writes, family7). -/
theorem test_decode_writes_family7 :
    decodeTableWord 28 0xF00000A = some (.wrF7Reg 0x0000#16 0x0A#8) ∧
    decodeTableWord 28 0xF7FFF00 = some (.wrF7Reg 0x7FFF#16 0x00#8) ∧
    decodeTableWord 28 0xFA00055 = some (.wrF7Ram 0xA000#16 0x55#8) ∧
    decodeTableWord 28 0xFC00000 = some (.wrInvC 0xC000#16 0x00#8) := by
  decide

/-- One word per family, bit by bit from the fields of R53: family code, `rw`, address, value. -/
theorem test_decode_bit_by_bit :
    decodeTableWord 28 0b000_1_1010000000000000_10101011 = some (.wrNmRam 0xA000#16 0xAB#8) ∧
    decodeTableWord 28 0b001_1_0010000000000000_00000101 = some (.wrF1BankLo 0x2000#16 0x05#8) ∧
    decodeTableWord 28 0b010_1_0011111111111111_00000011 = some (.wrF2Bank 0x3FFF#16 0x03#8) ∧
    decodeTableWord 28 0b011_1_0100000000000000_00001000 = some (.wrF3RamRtc 0x4000#16 0x08#8) ∧
    decodeTableWord 28 0b101_1_0011111111111111_00000001 = some (.wrF5BankHi 0x3FFF#16 0x01#8) ∧
    decodeTableWord 28 0b110_1_1010000000000000_00010001 = some (.wrF6Ram 0xA000#16 0x11#8) ∧
    decodeTableWord 28 0b111_0_1010000000000000_00000000 = some (.rdRamF7 0xA000#16) := by
  decide

/-- Any word of family code 4 (R56(e)); its range is `0x8000000` to `0x9FFFFFF`. -/
theorem test_decode_code4 :
    decodeTableWord 28 0x8000000 = some (.cfgIllegal .read 0x0000#16 0x00#8) ∧
    decodeTableWord 28 0x9FFFFFF = some (.cfgIllegal .write 0xFFFF#16 0xFF#8) := by
  decide

/-- A number with a bit above bit 27 is no word (R53). -/
theorem test_decode_too_wide : decodeTableWord 32 0x10000000 = none := by decide

/-- The worked packing of section 3.1. -/
theorem test_encode_worked : encode (some .family1) (.wrF1BankLo 0x2000#16 0x05#8) = 0x3200005#28 := by decide

/-- The 42 rows of spec/opcode_table.json are there, each under its own name. -/
theorem test_rows : opcodeRows.length = 42 ∧ (opcodeRows.map Row.name).Nodup := by decide

/-! ## WellFormed refuses ill-formed terms (R53, R54) -/

/-- The family column: another family, code 4 in a legal row, a legal family in the row of code 4. -/
theorem test_wf_refuses_family :
    WellFormed (some .family3) (.wrF1BankLo 0x2000#16 5#8) = false ∧
    WellFormed (some .family1) (.rdRamF2 0xA000#16) = false ∧
    WellFormed none (.rdRom0 0x0000#16) = false ∧
    WellFormed none (.wrInvC 0xC000#16 0#8) = false ∧
    WellFormed (some .family1) (.cfgIllegal .read 0#16 0#8) = false := by
  decide

/-- The address column: one past either end of a range. -/
theorem test_wf_refuses_address :
    WellFormed (some .family1) (.rdRom0 0x4000#16) = false ∧
    WellFormed (some .family1) (.rdRomX 0x3FFF#16) = false ∧
    WellFormed (some .family1) (.rdInv8 0xA000#16) = false ∧
    WellFormed (some .family1) (.rdRamF1 0xC000#16) = false ∧
    WellFormed (some .family1) (.wrF1Sec 0x6000#16 1#8) = false ∧
    WellFormed (some .family5) (.wrF5BankLo 0x3000#16 1#8) = false := by
  decide

/-- Address bit 8 under Family2. -/
theorem test_wf_refuses_bit8 :
    WellFormed (some .family2) (.wrF2RamEn 0x0100#16 0x0A#8) = false ∧
    WellFormed (some .family2) (.wrF2NoneA 0x0000#16 0x0A#8) = false ∧
    WellFormed (some .family2) (.wrF2NoneB 0x2100#16 3#8) = false ∧
    WellFormed (some .family2) (.wrF2Bank 0x2000#16 3#8) = false := by
  decide

/-- The value of a read is 0. -/
theorem test_wf_refuses_data : WellFormed none (.cfgIllegal .read 0#16 1#8) = false := by decide

/-! ## One step from a state before (96_test_vectors_by_family.md) -/

/-- `RD.ROM0`, vector RP.3. -/
theorem test_rd_rom0_rp_3 :
    ans (st (cart .family1 128 [0, 1, 69]) false 0x001#9 0#2 false 0x0#4) 0x23FFF00 = some (.ok, some 0xFF#8) := by decide

/-- `RD.ROM0`, vector P5 step 1. -/
theorem test_rd_rom0_p5_step_1 :
    ans (st (cart .noMapper 2 [0, 1]) false 0x001#9 0#2 false 0x0#4) 0x0000000 = some (.ok, some 0x00#8) := by decide

/-- `RD.ROMX`, vector F1.19. -/
theorem test_rd_romx_f1_19 :
    ans (st (cart .family1 128 [0, 1, 69]) false 0x005#9 2#2 false 0x0#4) 0x2400000 = some (.ok, some 0x45#8) := by decide

/-- `RD.ROMX`, vector wrap, P(3), 0x1FF mod 3. -/
theorem test_rd_romx_wrap_p_3_0x1ff_mod_3 :
    ans (st (cart .family5 3 [0, 1, 2]) false 0x1FF#9 0#2 false 0x0#4) 0xA400000 = some (.ok, some 0x01#8) := by decide

/-- `RD.INV8`, vector RP.10. -/
theorem test_rd_inv8_rp_10 :
    ans (st (cart .family1 128 [0, 1, 69]) false 0x001#9 0#2 false 0x0#4) 0x29FFF00 = some (.invalidAddress, none) := by decide

/-- `RD.INVC`, vector RP.12. -/
theorem test_rd_invc_rp_12 :
    ans (st (cart .family1 128 [0, 1, 69]) false 0x001#9 0#2 false 0x0#4) 0x2FFFF00 = some (.invalidAddress, none) := by decide

/-- `WR.INV8`, vector RP.13. -/
theorem test_wr_inv8_rp_13 :
    ans (st (cart .family1 128 [0, 1, 69]) false 0x001#9 0#2 false 0x0#4) 0x3800012 = some (.invalidAddress, none) := by decide

/-- `WR.INVC`, vector F7.11. -/
theorem test_wr_invc_f7_11 :
    ans (st (cart .family7 4 [0, 1]) false 0x001#9 0#2 false 0x0#4) 0xFC00000 = some (.invalidAddress, none) := by decide

/-- `WR.NM.ROM`, vector NM.1. -/
theorem test_wr_nm_rom_nm_1 :
    regsOf (st (withRam (cart .noMapper 2 [0, 1])) false 0x001#9 0#2 false 0x0#4) 0x100000A = some ⟨false, 0x001#9, 0#2, false, 0x0#4⟩ := by decide

/-- `WR.NM.RAM`, vector NM.5. -/
theorem test_wr_nm_ram_nm_5 :
    ramOf (st (withRam (cart .noMapper 2 [0, 1])) false 0x001#9 0#2 false 0x0#4) 0x1A000AB = some [(0, 0xAB#8)] := by decide

/-- `WR.NM.RAM`, vector NMX.1. -/
theorem test_wr_nm_ram_nmx_1 :
    ramOf (st (cart .noMapper 2 [0, 1]) false 0x001#9 0#2 false 0x0#4) 0x1A000AB = some [] := by decide

/-- `RD.RAM.NM`, vector NM.8. -/
theorem test_rd_ram_nm_nm_8 :
    ans ((st (withRam (cart .noMapper 2 [0, 1])) false 0x001#9 0#2 false 0x0#4).setRam [(0x1FFF, 0x5A#8)]) 0x0BFFF00 = some (.ok, some 0x5A#8) := by decide

/-- `RD.RAM.NM`, vector NMX.2. -/
theorem test_rd_ram_nm_nmx_2 :
    ans (st (cart .noMapper 2 [0, 1]) false 0x001#9 0#2 false 0x0#4) 0x0A00000 = some (.ok, some 0xFF#8) := by decide

/-- `WR.F1.RAMEN`, vector F1.3. -/
theorem test_wr_f1_ramen_f1_3 :
    regsOf (st (cart .family1 128 [0, 1, 69]) false 0x001#9 0#2 false 0x0#4) 0x31FFFFA = some ⟨true, 0x001#9, 0#2, false, 0x0#4⟩ := by decide

/-- `WR.F1.RAMEN`, vector F1.5. -/
theorem test_wr_f1_ramen_f1_5 :
    regsOf (st (cart .family1 128 [0, 1, 69]) true 0x001#9 0#2 false 0x0#4) 0x31FFFA0 = some ⟨false, 0x001#9, 0#2, false, 0x0#4⟩ := by decide

/-- `WR.F1.BANKLO`, vector F1.10. -/
theorem test_wr_f1_banklo_f1_10 :
    regsOf (st (cart .family1 128 [0, 1, 69]) false 0x007#9 1#2 false 0x0#4) 0x33FFF60 = some ⟨false, 0x001#9, 1#2, false, 0x0#4⟩ := by decide

/-- `WR.F1.BANKLO`, vector F1W.5. -/
theorem test_wr_f1_banklo_f1w_5 :
    regsOf (st (atWrite (cart .family1 128 [0])) false 0x045#9 0#2 false 0x0#4) 0x3200000 = some ⟨false, 0x041#9, 0#2, false, 0x0#4⟩ := by decide

/-- `WR.F1.SEC`, vector F1.14. -/
theorem test_wr_f1_sec_f1_14 :
    regsOf (st (cart .family1 128 [0, 1, 69]) false 0x005#9 0#2 false 0x0#4) 0x35FFFFF = some ⟨false, 0x005#9, 3#2, false, 0x0#4⟩ := by decide

/-- `WR.F1.SEC`, vector F1W.2. -/
theorem test_wr_f1_sec_f1w_2 :
    regsOf (st (atWrite (cart .family1 128 [0])) false 0x005#9 0#2 true 0x0#4) 0x3400002 = some ⟨false, 0x005#9, 0#2, true, 0x2#4⟩ := by decide

/-- `WR.F1.MODE`, vector F1.17. -/
theorem test_wr_f1_mode_f1_17 :
    regsOf (st (cart .family1 128 [0, 1, 69]) false 0x005#9 2#2 true 0x0#4) 0x37FFFFE = some ⟨false, 0x005#9, 2#2, false, 0x0#4⟩ := by decide

/-- `WR.F1.MODE`, vector F1.18. -/
theorem test_wr_f1_mode_f1_18 :
    regsOf (st (cart .family1 128 [0, 1, 69]) false 0x005#9 2#2 false 0x0#4) 0x36000FF = some ⟨false, 0x005#9, 2#2, true, 0x0#4⟩ := by decide

/-- `WR.F1.RAM`, vector F1.21. -/
theorem test_wr_f1_ram_f1_21 :
    ramOf (st (cart .family1 128 [0, 1, 69]) true 0x005#9 2#2 true 0x0#4) 0x3A01077 = some [(2 * 0x2000 + 0x10, 0x77#8)] := by decide

/-- `WR.F1.RAM`, vector F1W.7. -/
theorem test_wr_f1_ram_f1w_7 :
    ramOf (st (atWrite (cart .family1 128 [0])) true 0x045#9 0#2 false 0x2#4) 0x3A01077 = some [(2 * 0x2000 + 0x10, 0x77#8)] := by decide

/-- `RD.RAM.F1`, vector F1.24. -/
theorem test_rd_ram_f1_f1_24 :
    ans ((st (cart .family1 128 [0, 1, 69]) true 0x001#9 2#2 true 0x0#4).setRam [(2 * 0x2000 + 0x10, 0x77#8)]) 0x2A01000 = some (.ok, some 0x77#8) := by decide

/-- `RD.RAM.F1`, vector F1.25. -/
theorem test_rd_ram_f1_f1_25 :
    ans ((st (cart .family1 128 [0, 1, 69]) true 0x001#9 2#2 false 0x0#4).setRam [(2 * 0x2000 + 0x10, 0x77#8)]) 0x2A01000 = some (.ok, some 0x00#8) := by decide

/-- `WR.F2.RAMEN`, vector F2.3. -/
theorem test_wr_f2_ramen_f2_3 :
    regsOf (st (cart .family2 16 [0]) false 0x001#9 0#2 false 0x0#4) 0x51E000A = some ⟨true, 0x001#9, 0#2, false, 0x0#4⟩ := by decide

/-- `WR.F2.RAMEN`, vector F2.8. -/
theorem test_wr_f2_ramen_f2_8 :
    regsOf (st (cart .family2 16 [0]) true 0x001#9 0#2 false 0x0#4) 0x50000A0 = some ⟨false, 0x001#9, 0#2, false, 0x0#4⟩ := by decide

/-- `WR.F2.NONE_A`, vector F2.7. -/
theorem test_wr_f2_none_a_f2_7 :
    regsOf (st (cart .family2 16 [0]) true 0x001#9 0#2 false 0x0#4) 0x5010000 = some ⟨true, 0x001#9, 0#2, false, 0x0#4⟩ := by decide

/-- `WR.F2.NONE_B`, vector F2.14. -/
theorem test_wr_f2_none_b_f2_14 :
    regsOf (st (cart .family2 16 [0]) false 0x003#9 0#2 false 0x0#4) 0x53EFF05 = some ⟨false, 0x003#9, 0#2, false, 0x0#4⟩ := by decide

/-- `WR.F2.BANK`, vector F2.10. -/
theorem test_wr_f2_bank_f2_10 :
    regsOf (st (cart .family2 16 [0]) false 0x001#9 0#2 false 0x0#4) 0x53FFFF7 = some ⟨false, 0x007#9, 0#2, false, 0x0#4⟩ := by decide

/-- `WR.F2.BANK`, vector F2.12. -/
theorem test_wr_f2_bank_f2_12 :
    regsOf (st (cart .family2 16 [0]) false 0x003#9 0#2 false 0x0#4) 0x5210010 = some ⟨false, 0x001#9, 0#2, false, 0x0#4⟩ := by decide

/-- `WR.F2.NONE_C`, vector F2.17. -/
theorem test_wr_f2_none_c_f2_17 :
    regsOf (st (cart .family2 16 [0]) false 0x003#9 0#2 false 0x0#4) 0x57FFFFF = some ⟨false, 0x003#9, 0#2, false, 0x0#4⟩ := by decide

/-- `WR.F2.RAM`, vector F2.21. -/
theorem test_wr_f2_ram_f2_21 :
    ramOf (st (cart .family2 16 [0]) true 0x001#9 0#2 false 0x0#4) 0x5A1FF3C = some [(0x1FF, 0x0C#8)] := by decide

/-- `WR.F2.RAM`, vector F2.23. -/
theorem test_wr_f2_ram_f2_23 :
    ramOf (st (cart .family2 16 [0]) true 0x001#9 0#2 false 0x0#4) 0x5A2003C = some [] := by decide

/-- `RD.RAM.F2`, vector F2.19. -/
theorem test_rd_ram_f2_f2_19 :
    ans ((st (cart .family2 16 [0]) true 0x001#9 0#2 false 0x0#4).setRam [(0, 0x0B#8)]) 0x4A00000 = some (.ok, some 0xFB#8) := by decide

/-- `RD.RAM.F2`, vector F2.24. -/
theorem test_rd_ram_f2_f2_24 :
    ans ((st (cart .family2 16 [0]) true 0x001#9 0#2 false 0x0#4).setRam [(0, 0x0B#8)]) 0x4A20000 = some (.ok, some 0xFF#8) := by decide

/-- `WR.F3.RAMEN`, vector F3.2. -/
theorem test_wr_f3_ramen_f3_2 :
    regsOf (st (cart .family3 64 [0]) true 0x001#9 0#2 false 0x0#4) 0x71FFF00 = some ⟨false, 0x001#9, 0#2, false, 0x0#4⟩ := by decide

/-- `WR.F3.BANK`, vector F3.5. -/
theorem test_wr_f3_bank_f3_5 :
    regsOf (st (cart .family3 64 [0]) false 0x045#9 0#2 false 0x0#4) 0x73FFF80 = some ⟨false, 0x001#9, 0#2, false, 0x0#4⟩ := by decide

/-- `WR.F3.BANK`, vector F3.7. -/
theorem test_wr_f3_bank_f3_7 :
    regsOf (st (cart .family3 64 [0]) false 0x001#9 0#2 false 0x0#4) 0x7200020 = some ⟨false, 0x020#9, 0#2, false, 0x0#4⟩ := by decide

/-- `WR.F3.RAMRTC`, vector F3.14. -/
theorem test_wr_f3_ramrtc_f3_14 :
    regsOf (st (cart .family3 64 [0]) false 0x001#9 0#2 false 0x0#4) 0x7400018 = some ⟨false, 0x001#9, 0#2, false, 0x8#4⟩ := by decide

/-- `WR.F3.LATCH`, vector F3.17. -/
theorem test_wr_f3_latch_f3_17 :
    regsOf (st (cart .family3 64 [0]) false 0x005#9 0#2 false 0x3#4) 0x77FFF00 = some ⟨false, 0x005#9, 0#2, false, 0x3#4⟩ := by decide

/-- `WR.F3.RAM`, vector F3.21. -/
theorem test_wr_f3_ram_f3_21 :
    ramOf (st (cart .family3 64 [0]) true 0x001#9 0#2 false 0x7#4) 0x7BFFF01 = some [(7 * 0x2000 + 0x1FFF, 0x01#8)] := by decide

/-- `WR.F3.RAM`, vector F3.24. -/
theorem test_wr_f3_ram_f3_24 :
    portOf (st (cart .family3 64 [0]) true 0x001#9 0#2 false 0x8#4) 0x7A12307 = some (.clock 0x8#4 (some 0x07#8)) := by decide

/-- `RD.RAM.F3`, vector F3.22. -/
theorem test_rd_ram_f3_f3_22 :
    ans ((st (cart .family3 64 [0]) true 0x001#9 0#2 false 0x8#4).setClock [0x3B#8] 0) 0x6A00000 = some (.ok, some 0x3B#8) := by decide

/-- `RD.RAM.F3`, vector F3.25. -/
theorem test_rd_ram_f3_f3_25 :
    ans (st (cart .family3 64 [0]) true 0x001#9 0#2 false 0xD#4) 0x6A00000 = some (.ok, some 0xFF#8) := by decide

/-- `WR.F5.RAMEN`, vector F5.3. -/
theorem test_wr_f5_ramen_f5_3 :
    regsOf (st (cart .family5 512 [0, 511]) false 0x001#9 0#2 false 0x0#4) 0xB1FFFAA = some ⟨true, 0x001#9, 0#2, false, 0x0#4⟩ := by decide

/-- `WR.F5.BANKLO`, vector F5.8. -/
theorem test_wr_f5_banklo_f5_8 :
    regsOf (st (cart .family5 512 [0, 511]) false 0x142#9 0#2 false 0x0#4) 0xB200000 = some ⟨false, 0x100#9, 0#2, false, 0x0#4⟩ := by decide

/-- `WR.F5.BANKHI`, vector F5.10. -/
theorem test_wr_f5_bankhi_f5_10 :
    regsOf (st (cart .family5 512 [0, 511]) false 0x142#9 0#2 false 0x0#4) 0xB3FFFFE = some ⟨false, 0x042#9, 0#2, false, 0x0#4⟩ := by decide

/-- `WR.F5.RAMB`, vector F5.17. -/
theorem test_wr_f5_ramb_f5_17 :
    regsOf (st (cart .family5 512 [0, 511]) false 0x001#9 0#2 false 0x0#4) 0xB5FFF1F = some ⟨false, 0x001#9, 0#2, false, 0xF#4⟩ := by decide

/-- `WR.F5.NONE`, vector F5.20. -/
theorem test_wr_f5_none_f5_20 :
    regsOf (st (cart .family5 512 [0, 511]) false 0x042#9 0#2 false 0x3#4) 0xB7FFFFF = some ⟨false, 0x042#9, 0#2, false, 0x3#4⟩ := by decide

/-- `WR.F5.RAM`, vector F5.21. -/
theorem test_wr_f5_ram_f5_21 :
    ramOf (st (cart .family5 512 [0, 511]) true 0x001#9 0#2 false 0xF#4) 0xBBFFF99 = some [(15 * 0x2000 + 0x1FFF, 0x99#8)] := by decide

/-- `RD.RAM.F5`, vector F5.22. -/
theorem test_rd_ram_f5_f5_22 :
    ans ((st (cart .family5 512 [0, 511]) true 0x001#9 0#2 false 0xF#4).setRam [(15 * 0x2000 + 0x1FFF, 0x99#8)]) 0xABFFF00 = some (.ok, some 0x99#8) := by decide

/-- `WR.F6.REG`, vector F6.3. -/
theorem test_wr_f6_reg_f6_3 :
    ans (st (cart .family6 4 [0, 1]) false 0x001#9 0#2 false 0x0#4) 0xD00000A = some (.unimplementedFamily, none) := by decide

/-- `WR.F6.RAM`, vector F6.8. -/
theorem test_wr_f6_ram_f6_8 :
    ramOf (st (cart .family6 4 [0, 1]) false 0x001#9 0#2 false 0x0#4) 0xDA00011 = some [] := by decide

/-- `RD.RAM.F6`, vector F6.9. -/
theorem test_rd_ram_f6_f6_9 :
    ans (st (cart .family6 4 [0, 1]) false 0x001#9 0#2 false 0x0#4) 0xCA00000 = some (.ok, some 0xFF#8) := by decide

/-- `WR.F7.REG`, vector F7.5. -/
theorem test_wr_f7_reg_f7_5 :
    ans (st (cart .family7 4 [0, 1]) false 0x001#9 0#2 false 0x0#4) 0xF7FFF00 = some (.unimplementedFamily, none) := by decide

/-- `WR.F7.RAM`, vector F7.6. -/
theorem test_wr_f7_ram_f7_6 :
    ans (st (cart .family7 4 [0, 1]) false 0x001#9 0#2 false 0x0#4) 0xFA00055 = some (.unimplementedFamily, none) := by decide

/-- `RD.RAM.F7`, vector F7.9. -/
theorem test_rd_ram_f7_f7_9 :
    ans (st (cart .family7 4 [0, 1]) false 0x001#9 0#2 false 0x0#4) 0xEBFFF00 = some (.ok, some 0xFF#8) := by decide

/-- `CFG.ILLEGAL` (R123): the machine refuses. -/
theorem test_cfg_illegal :
    step (State.reset.withFetchWord 28 0x8000000) = .refused .illegalConfiguration := by rfl

/-! ## Witnesses: for every statement with hypotheses, states and operands that meet them; the ends of the ranges of its
clauses. -/

/-- A state in which the master issues one transaction next. -/
def asking (s : State) (tx : Transaction) : State := { s with master := [tx] }

/-- A Family1 cartridge of four banks. -/
def c1 : Config := cart .family1 4 [0, 1]

/-- A running Family1 state: gate open, mode 1, secondary bits 2, one cell written. -/
def s1 : State := (st c1 true 0x015#9 2#2 true 0#4).setRam [(2 * 0x2000 + 0x10, 0x77#8)]

/-- The same selectors under `AT_WRITE`. -/
def s1w : State := (st (atWrite c1) true 0x015#9 0#2 true 2#4).setRam [(2 * 0x2000 + 0x10, 0x77#8)]

/-- A running Family2 state. -/
def s2 : State := (st (cart .family2 4 [0]) true 0x00F#9 0#2 false 0#4).setRam [(0x1FF, 0x0C#8)]

/-- A Family3 state with a RAM selector. -/
def s3 (r : BitVec 4) : State := st (cart .family3 4 [0]) true 0x07F#9 0#2 false r

/-- A Family5 state with bank 0 selected. -/
def s5 : State := st (cart .family5 4 [0]) true 0x000#9 0#2 false 0xF#4

/-- The load states of Family6, of Family7 and of a NoMapper cartridge with RAM. -/
def s6 : State := State.atLoad (cart .family6 4 [0]) []
def s7 : State := State.atLoad (cart .family7 4 [0]) []
def snm : State := State.atLoad (withRam (cart .noMapper 2 [0, 1])) []

theorem witness_DecodeOfEncodeIsIdentity :
    WellFormed (some .family2) (.wrF2Bank 0x3FFF#16 0xFF#8) = true ∧
    WellFormed none (.cfgIllegal .write 0xFFFF#16 0xFF#8) = true := by decide

theorem witness_EncodeOfDecodeIsIdentity :
    ((wordTransaction 0x2400000#28).dir = .read ∧ (wordTransaction 0x2400000#28).data = 0#8) ∧
    (wordTransaction 0x3200005#28).dir = .write := by decide

theorem witness_DecodedOperationIsWellFormed :
    ((rd 0xFFFF#16).dir = .read → (rd 0xFFFF#16).data = 0#8) ∧ (wr 0x0000#16 0xFF#8).dir ≠ .read := by decide

theorem witness_ExactlyOneTableRowMatches :
    wordStrap 0x0000000#28 ≠ none ∧ wordStrap 0xFFFFFFF#28 ≠ none ∧ wordStrap 0x8000000#28 = none ∧
    wordStrap 0x9FFFFFF#28 = none := by decide

/-- The ends of the ranges of R54, and address bit 8. -/
theorem witness_DecodeFollowsOperationMap :
    (0x3FFF#16).toNat ≤ 0x3FFF ∧ ((0x4000 ≤ (0x4000#16).toNat ∧ (0x4000#16).toNat ≤ 0x7FFF) ∧
      (0x4000 ≤ (0x7FFF#16).toNat ∧ (0x7FFF#16).toNat ≤ 0x7FFF)) ∧
    ((0x8000 ≤ (0x8000#16).toNat ∧ (0x8000#16).toNat ≤ 0x9FFF) ∧
      (0x8000 ≤ (0x9FFF#16).toNat ∧ (0x9FFF#16).toNat ≤ 0x9FFF)) ∧ 0xC000 ≤ (0xC000#16).toNat ∧
    ((0xA000 ≤ (0xA000#16).toNat ∧ (0xA000#16).toNat ≤ 0xBFFF) ∧
      (0xA000 ≤ (0xBFFF#16).toNat ∧ (0xBFFF#16).toNat ≤ 0xBFFF)) ∧
    ((0x1EFF#16).toNat ≤ 0x1FFF ∧ (0x1EFF#16).toNat / 256 % 2 = 0) ∧
    ((0x1FFF#16).toNat ≤ 0x1FFF ∧ (0x1FFF#16).toNat / 256 % 2 = 1) ∧
    (0x2000 ≤ (0x2FFF#16).toNat ∧ (0x2FFF#16).toNat ≤ 0x2FFF ∧ (0x2FFF#16).toNat / 256 % 2 = 1) ∧
    (0x3000 ≤ (0x3000#16).toNat ∧ (0x3000#16).toNat ≤ 0x3FFF ∧ (0x3000#16).toNat / 256 % 2 = 0) ∧
    (0x4000 ≤ (0x5FFF#16).toNat ∧ (0x5FFF#16).toNat ≤ 0x5FFF) ∧
    (0x6000 ≤ (0x6000#16).toNat ∧ (0x6000#16).toNat ≤ 0x7FFF) := by decide

theorem witness_WindowOfAddress :
    legal (asking s1 (rd 0x9FFF#16)).config = true ∧ (asking s1 (rd 0x9FFF#16)).master = [rd 0x9FFF#16] ∧
    window 0x9FFF#16 = .invalid8 ∧ (asking s1 (wr 0xC000#16 1#8)).master = [wr 0xC000#16 1#8] ∧
    window 0xC000#16 = .invalidC := by decide

theorem witness_StepRunsDecodedTransaction :
    buildable (asking s1 (rd 0x4000#16)).config = true ∧ (asking s1 (rd 0x4000#16)).master = [rd 0x4000#16] := by decide

theorem witness_NothingHappensBetweenTransactions : State.reset.master = [] := by decide

theorem witness_IllegalConfigurationIsRefused :
    legal { c1 with family := none } = false ∧ legal { c1 with imageLen := 0 } = false ∧
    legal { c1 with imageLen := 0x4001 } = false ∧ legal { c1 with nRamBanks := 0 } = false ∧
    (asking s1 (rd 0#16)).master = [rd 0#16] := by decide

theorem witness_EveryOperationAnswers :
    (∀ d a v, Instr.rdRom0 0#16 ≠ .cfgIllegal d a v) ∧ legal s1.config = true :=
  ⟨fun _ _ _ h => (by cases h), by decide⟩

theorem witness_LowerWindowReadsBankZero : (0x3FFF#16).toNat ≤ 0x3FFF := by decide

/-- Selector 0x15 on four banks: bank 1. -/
theorem witness_UpperWindowReadsWrappedBank :
    (0x4000 ≤ (0x4000#16).toNat ∧ (0x4000#16).toNat ≤ 0x7FFF) ∧
      (0x4000 ≤ (0x7FFF#16).toNat ∧ (0x7FFF#16).toNat ≤ 0x7FFF) ∧
    1 = (romxSel s1.config s1.regs).toNat % (s1.config.imageLen / 0x4000) := by decide

theorem witness_UpperSelectorTable :
    s5.config.family = some .family5 ∧
    (c1.family = some .family1 ∧ c1.secBinding = .atAccess ∧ (Regs.atLoad c1).mode = false ∧ s1.regs.mode = true) ∧
    (s1w.config.family = some .family1 ∧ s1w.config.secBinding = .atWrite) ∧
    s2.config.family = some .family2 ∧ (s3 0#4).config.family = some .family3 := by decide

theorem witness_RamBankTable :
    s2.config.family = some .family2 ∧
    (c1.family = some .family1 ∧ c1.secBinding = .atAccess ∧ (Regs.atLoad c1).mode = false ∧ s1.regs.mode = true) ∧
    (s1w.config.family = some .family1 ∧ s1w.config.secBinding = .atWrite) ∧ s5.config.family = some .family5 := by decide

theorem witness_RamTargetTable :
    inRamWindow 0xA000#16 ∧ inRamWindow 0xBFFF#16 ∧ s1.config.family = some .family1 ∧
    (s2.config.family = some .family2 ∧ (0xA1FF#16).toNat ≤ 0xA1FF ∧ 0xA200 ≤ (0xA200#16).toNat) ∧
    ((s3 0#4).config.family = some .family3 ∧ (s3 7#4).regs.ramsel.toNat ≤ 7 ∧ 8 ≤ (s3 8#4).regs.ramsel.toNat ∧
      (s3 12#4).regs.ramsel.toNat ≤ 12 ∧ 13 ≤ (s3 13#4).regs.ramsel.toNat) := by decide

theorem witness_BankIndicesAreInRange : legal s5.config = true ∧ ramTarget s5.config s5.regs 0xBFFF#16 = .ram 15 0x1FFF := by
  decide

theorem witness_SelectorIsNeverZero :
    (s1.config.family = some .family1 ∧ Inv s1) ∧ (s2.config.family = some .family2 ∧ Inv s2) ∧
    ((s3 15#4).config.family = some .family3 ∧ Inv (s3 15#4)) := by decide

theorem witness_InvalidAccessRaises :
    legal (asking s7 (wr 0x8000#16 0#8)).config = true ∧
    (asking s7 (wr 0x8000#16 0#8)).master = [wr 0x8000#16 0#8] ∧
    inInvalidRange 0x8000#16 ∧ inInvalidRange 0x9FFF#16 ∧ inInvalidRange 0xC000#16 ∧ inInvalidRange 0xFFFF#16 := by decide

theorem witness_InvalidAddressExactlyOutsideWindows :
    legal (asking s6 (rd 0x9FFF#16)).config = true ∧ (asking s6 (rd 0x9FFF#16)).master = [rd 0x9FFF#16] ∧
    ∃ t r, step (asking s6 (rd 0x9FFF#16)) = .next t ∧ t.last = some r :=
  ⟨by decide, rfl, _, _, rfl, rfl⟩

theorem witness_UnimplementedFamilyExactlyThere :
    legal (asking s7 (wr 0xBFFF#16 0#8)).config = true ∧ (asking s7 (wr 0xBFFF#16 0#8)).master = [wr 0xBFFF#16 0#8] ∧
    ∃ t r, step (asking s7 (wr 0xBFFF#16 0#8)) = .next t ∧ t.last = some r :=
  ⟨by decide, rfl, _, _, rfl, rfl⟩

theorem witness_NormalProtocolEndsOk :
    legal (asking s6 (wr 0xA000#16 1#8)).config = true ∧ (asking s6 (wr 0xA000#16 1#8)).master = [wr 0xA000#16 1#8] ∧
    wellRouted (wr 0xA000#16 1#8) ∧ s6.config.family ≠ some .family7 ∧ ¬ inProgramWindow 0xA000#16 := by decide

theorem witness_ResponseShape :
    legal (asking s1 (rd 0x8000#16)).config = true ∧ (asking s1 (rd 0x8000#16)).master = [rd 0x8000#16] ∧
    ∃ t, step (asking s1 (rd 0x8000#16)) = .next t :=
  ⟨by decide, rfl, _, rfl⟩

theorem witness_ErrorsDoNotLatch :
    legal s1.config = true ∧
    ∃ t r, issueAll [wr 0x8000#16 0x0A#8] s1 = .next t ∧ t.last = some r ∧ r.result ≠ .ok :=
  ⟨by decide, _, _, rfl, rfl, by decide⟩

theorem witness_ReadsChangeNothing :
    legal s1.config = true ∧ (rd 0xA010#16).dir = .read ∧ (∃ t, issueAll [rd 0xA010#16] s1 = .next t) ∧
    ∀ r, responseTo (rd 0x4000#16) s1 = some r → r.clkRd = false :=
  ⟨by decide, rfl, ⟨_, rfl⟩, fun r h => by cases h; rfl⟩

theorem witness_LowerWindowNeverMoves :
    legal s1.config = true ∧ (0x3FFF#16).toNat ≤ 0x3FFF ∧ ∃ t, runSteps 1 (asking s1 (wr 0x2000#16 5#8)) = .next t :=
  ⟨by decide, by decide, _, rfl⟩

theorem witness_Family1SecondaryWrite :
    s1.config.secBinding = .atAccess ∧ (s1w.config.secBinding = .atWrite ∧ s1w.regs.mode = true) ∧
    (Regs.atLoad s1w.config).mode = false := by decide

theorem witness_WritesToNoRegisterDoNothing :
    (legal snm.config = true ∧ snm.config.family = some .noMapper ∧ (0x7FFF#16).toNat ≤ 0x7FFF) ∧
    (legal s2.config = true ∧ s2.config.family = some .family2 ∧
      ((0x1FFF#16).toNat ≤ 0x1FFF ∧ (0x1FFF#16).toNat / 256 % 2 = 1) ∧
      (0x2000 ≤ (0x3EFF#16).toNat ∧ (0x3EFF#16).toNat ≤ 0x3FFF ∧ (0x3EFF#16).toNat / 256 % 2 = 0) ∧
      ((0x4000 ≤ (0x4000#16).toNat ∧ (0x4000#16).toNat ≤ 0x7FFF) ∧
      (0x4000 ≤ (0x7FFF#16).toNat ∧ (0x7FFF#16).toNat ≤ 0x7FFF))) ∧
    (legal (s3 0#4).config = true ∧ (s3 0#4).config.family = some .family3 ∧ 0x6000 ≤ (0x6000#16).toNat ∧
      (0x6000#16).toNat ≤ 0x7FFF) ∧
    (legal s5.config = true ∧ s5.config.family = some .family5 ∧ 0x6000 ≤ (0x7FFF#16).toNat ∧
      (0x7FFF#16).toNat ≤ 0x7FFF) ∧
    (asking s5 (wr 0x7FFF#16 0xFF#8)).master = [wr 0x7FFF#16 0xFF#8] := by decide

theorem witness_NoMapperRamAccess :
    snm.config.family = some .noMapper ∧ inRamWindow 0xA000#16 ∧ snm.ram.wf ∧ snm.config.hasRam = true ∧
    State.reset.config.family = some .noMapper ∧ State.reset.ram.wf ∧ State.reset.config.hasRam = false := by decide

theorem witness_Family1RamAccess :
    s1.config.family = some .family1 ∧ inRamWindow 0xBFFF#16 ∧ s1.ram.wf ∧
    2 = (ramSel s1.config s1.regs).toNat % s1.config.nRamBanks ∧
    2 * 0x2000 + 0x1FFF = 2 * 0x2000 + ((0xBFFF#16).toNat - 0xA000) ∧ s1.regs.ramEn = true ∧
    (Regs.atLoad c1).ramEn = false := by decide

theorem witness_Family2RamAccess :
    s2.config.family = some .family2 ∧ inRamWindow 0xA1FF#16 ∧ s2.ram.wf ∧ s2.regs.ramEn = true ∧
    (0xA1FF#16).toNat ≤ 0xA1FF ∧ inRamWindow 0xA200#16 ∧ 0xA200 ≤ (0xA200#16).toNat := by decide

theorem witness_Family3RamAndClockAccess :
    (s3 7#4).config.family = some .family3 ∧ inRamWindow 0xA000#16 ∧ (s3 7#4).ram.wf ∧ (s3 7#4).regs.ramEn = true ∧
    7 = (s3 7#4).regs.ramsel.toNat % (s3 7#4).config.nRamBanks ∧
    7 * 0x2000 = 7 * 0x2000 + ((0xA000#16).toNat - 0xA000) ∧ (s3 7#4).regs.ramsel.toNat ≤ 7 ∧
    8 ≤ (s3 8#4).regs.ramsel.toNat ∧ (s3 12#4).regs.ramsel.toNat ≤ 12 ∧ 13 ≤ (s3 13#4).regs.ramsel.toNat ∧
    ((s3 8#4).setClock [0x3B#8] 0).clkIn = [0x3B#8] ∧ (s3 8#4).clkIn = [] := by decide

theorem witness_Family5RamAccess :
    s5.config.family = some .family5 ∧ inRamWindow 0xBFFF#16 ∧ s5.ram.wf ∧
    15 = s5.regs.ramsel.toNat % s5.config.nRamBanks ∧
    15 * 0x2000 + 0x1FFF = 15 * 0x2000 + ((0xBFFF#16).toNat - 0xA000) ∧ s5.regs.ramEn = true ∧
    (Regs.atLoad s5.config).ramEn = false := by decide

theorem witness_Family6And7Accesses : s6.config.family = some .family6 ∧ Inv s6 := by decide

theorem witness_RamWriteReadsBack :
    Inv s1 ∧ legal s1.config = true ∧ s1.config.family ≠ some .family2 ∧ inRamWindow 0xBFFF#16 ∧
    ramGate s1.config s1.regs = true ∧ ramTarget s1.config s1.regs 0xBFFF#16 = .ram 2 0x1FFF := by decide

theorem witness_Family2NibbleRoundTrip :
    s2.config.family = some .family2 ∧ legal s2.config = true ∧ s2.ram.wf ∧ s2.regs.ramEn = true ∧
    (0xA000 ≤ (0xA000#16).toNat ∧ (0xA000#16).toNat ≤ 0xA1FF) ∧
      (0xA000 ≤ (0xA1FF#16).toNat ∧ (0xA1FF#16).toNat ≤ 0xA1FF) := by decide

theorem witness_ClosedGateHidesButKeepsRam :
    (s1.config.family = some .family1 ∧ legal s1.config = true ∧ s1.regs.ramEn = true ∧ inRamWindow 0xA010#16 ∧
      ramTarget s1.config s1.regs 0xA010#16 = .ram 2 0x0010) ∧
    ((s3 7#4).config.family = some .family3 ∧ legal (s3 7#4).config = true ∧ (s3 7#4).regs.ramEn = true ∧
      inRamWindow 0xA000#16 ∧ ramTarget (s3 7#4).config (s3 7#4).regs 0xA000#16 = .ram 7 0) ∧
    (s5.config.family = some .family5 ∧ legal s5.config = true ∧ s5.regs.ramEn = true ∧ inRamWindow 0xBFFF#16 ∧
      ramTarget s5.config s5.regs 0xBFFF#16 = .ram 15 0x1FFF) ∧
    (s2.config.family = some .family2 ∧ legal s2.config = true ∧ s2.regs.ramEn = true ∧
      0xA000 ≤ (0xA1FF#16).toNat ∧ (0xA1FF#16).toNat ≤ 0xA1FF) := by decide

theorem witness_StepKeepsInvariant :
    Inv (asking s1w (wr 0x4000#16 3#8)) ∧ ∃ t, step (asking s1w (wr 0x4000#16 3#8)) = .next t :=
  ⟨by decide, _, rfl⟩

theorem witness_LoadStatesHaveInvariant :
    Memory.wf [(0, 1#8)] ∧ Memory.below [(0, 1#8)] (c1.nRamBanks * 0x2000) ∧ c1.image.wf ∧ c1.image.below c1.imageLen := by
  decide

theorem witness_ParametersNeverChange : ∃ t, runSteps 2 (asking s1 (wr 0x6000#16 0#8)) = .next t := ⟨_, rfl⟩

/-- One transaction that changes a register and one that changes RAM. -/
theorem witness_OnlyWritesChangeTheBlock :
    legal s5.config = true ∧ (asking s5 (wr 0x2000#16 7#8)).master = [wr 0x2000#16 7#8] ∧
    (∃ t, step (asking s5 (wr 0x2000#16 7#8)) = .next t ∧ t.regs ≠ s5.regs) ∧
    ∃ t, step (asking s5 (wr 0xA000#16 7#8)) = .next t ∧ t.ram ≠ s5.ram :=
  ⟨by decide, rfl, ⟨_, rfl, by decide⟩, _, rfl, by decide⟩

theorem witness_ClosedGateIsolatesRam :
    ramGate s6.config s6.regs = false ∧ ∃ t, step (asking s6 (rd 0xA000#16)) = .next t := ⟨by decide, _, rfl⟩

theorem witness_HasRamMattersOnlyToNoMapper :
    s1.config.family ≠ some .noMapper ∧ ∃ t, step (asking s1 (rd 0xA010#16)) = .next t := ⟨by decide, _, rfl⟩

/-- One transaction for each array the ports can address. -/
theorem witness_PortsDescribeTheAccess :
    legal s1.config = true ∧ legal (s3 8#4).config = true ∧
    (∃ t r, step (asking s1 (wr 0xA010#16 1#8)) = .next t ∧ t.last = some r ∧ r.port = .ram 2 0x0010 (some 1#8)) ∧
    (∃ t r, step (asking s1 (rd 0x7FFF#16)) = .next t ∧ t.last = some r ∧ r.port = .rom 1 0x3FFF ∧ r.ramWe = false) ∧
    ∃ t r, step (asking (s3 8#4) (wr 0xA000#16 1#8)) = .next t ∧ t.last = some r ∧ r.clkIdx = some 8#4 :=
  ⟨by decide, by decide, ⟨_, _, rfl, rfl, rfl⟩, ⟨_, _, rfl, rfl, rfl, rfl⟩, _, _, rfl, rfl, rfl⟩

theorem witness_Family2CellsStayFourBits :
    s2.config.family = some .family2 ∧ (∀ c ∈ s2.ram, c.2.toNat < 16) ∧
    ∃ t, step (asking s2 (wr 0xA000#16 0xAB#8)) = .next t := ⟨by decide, by decide, _, rfl⟩

/-- A mode write that keeps the mode while the secondary bits are 2. -/
theorem witness_SecondaryBindingsAgree :
    bindingsMatch (asking s1 (wr 0x6000#16 1#8)) (asking s1w (wr 0x6000#16 1#8)) ∧ legal s1.config = true ∧
    ∀ (a : Addr) (v : Byte) (txs : List Transaction), (asking s1 (wr 0x6000#16 1#8)).master = wr a v :: txs →
      0x6000 ≤ a.toNat → a.toNat ≤ 0x7FFF → s1.regs.sec = 0#2 ∨ s1.regs.mode = decide (v.toNat % 2 = 1) :=
  ⟨by decide, by decide, fun _ _ _ h _ _ => by cases h; exact .inr (by decide)⟩

/-- A mode write that changes the mode while the secondary bits are 0. -/
theorem witness_SecondaryBindingsAgree_at_load :
    bindingsMatch (asking (State.atLoad c1 []) (wr 0x7FFF#16 1#8))
      (asking (State.atLoad (atWrite c1) []) (wr 0x7FFF#16 1#8)) ∧
    legal c1 = true ∧ (Regs.atLoad c1).sec = 0#2 := by decide

theorem witness_WindowsAfterLoad :
    legal c1 = true ∧ (0x4000 ≤ (0x4000#16).toNat ∧ (0x4000#16).toNat ≤ 0x7FFF) ∧
      (0x4000 ≤ (0x7FFF#16).toNat ∧ (0x7FFF#16).toNat ≤ 0x7FFF) ∧ inRamWindow 0xA000#16 ∧
    (c1.family ≠ some .noMapper ∧ c1.family ≠ some .family7) ∧
    (legal snm.config = true ∧ snm.config.family = some .noMapper ∧ snm.config.hasRam = true) ∧
    legal s7.config = true ∧ s7.config.family = some .family7 := by decide

theorem witness_LoadChecksItsImage :
    ((List.replicate 0x4000 0#8).length % 0x4000 = 0 ∧ (List.replicate 0x4000 0#8).length ≠ 0 ∧ c1.family ≠ none ∧
      c1.nRamBanks ≠ 0) ∧
    { c1 with family := none }.family = none ∧
    ({ c1 with nRamBanks := 0 }.family ≠ none ∧ { c1 with nRamBanks := 0 }.nRamBanks = 0) ∧
    0x3FFF < 0x4000 ∧ 0 < State.reset.config.nRomBanks := by
  simp only [List.length_replicate]
  decide

theorem witness_SaveThenRestoreKeepsRam :
    Inv s1 ∧ ∃ t, step (asking s1 (rd 0#16)) = .next t ∧ t.last ≠ none := ⟨by decide, _, rfl, by decide⟩

theorem witness_CompositeSequencesLoadRegisters :
    (s1.config.family = some .family1 ∧ legal s1.config = true ∧ s1.regs.mode = true ∧ (0x1F#5).toNat ≠ 0) ∧
    ((State.atLoad c1 []).config.family = some .family1 ∧ (State.atLoad c1 []).regs.mode = false) ∧
    (s2.config.family = some .family2 ∧ legal s2.config = true ∧ (0xF#4).toNat ≠ 0) ∧
    ((s3 0#4).config.family = some .family3 ∧ legal (s3 0#4).config = true ∧ (0x7F#7).toNat ≠ 0) ∧
    (s5.config.family = some .family5 ∧ legal s5.config = true) := by decide

theorem witness_HalfWrittenSelectorIsVisible :
    (s5.config.family = some .family5 ∧ legal s5.config = true) ∧
    ((State.atLoad c1 []).config.family = some .family1 ∧ legal (State.atLoad c1 []).config = true ∧
      (State.atLoad c1 []).regs.mode = false ∧
      1 = (romxSel (State.atLoad c1 []).config (State.atLoad c1 []).regs).toNat) ∧
    (0x4000 ≤ (0x4000#16).toNat ∧ (0x4000#16).toNat ≤ 0x7FFF) ∧
    (0x4000 ≤ (0x7FFF#16).toNat ∧ (0x7FFF#16).toNat ≤ 0x7FFF) := by decide

/-- A state for each family, and the ends of each range of write addresses. -/
theorem witness_BankSwitchIsSeenByTheNextRead :
    (0x4000 ≤ (0x7FFF#16).toNat ∧ (0x7FFF#16).toNat ≤ 0x7FFF) ∧
    (legal s1.config = true ∧ s1.config.family = some .family1 ∧ s1.config.secBinding = .atAccess ∧
      0x15 = (romxSel s1.config s1.regs).toNat) ∧
    (legal s1w.config = true ∧ s1w.config.family = some .family1 ∧ s1w.config.secBinding = .atWrite ∧
      0x15 = (romxSel s1w.config s1w.regs).toNat) ∧
    (legal s2.config = true ∧ s2.config.family = some .family2 ∧ 0xF = (romxSel s2.config s2.regs).toNat ∧
      0x2000 ≤ (0x3FFF#16).toNat ∧ (0x3FFF#16).toNat ≤ 0x3FFF ∧ (0x3FFF#16).toNat / 256 % 2 = 1) ∧
    (legal (s3 0#4).config = true ∧ (s3 0#4).config.family = some .family3 ∧
      0x7F = (romxSel (s3 0#4).config (s3 0#4).regs).toNat ∧ 0x2000 ≤ (0x2000#16).toNat ∧ (0x2000#16).toNat ≤ 0x3FFF) ∧
    (legal s5.config = true ∧ s5.config.family = some .family5 ∧ 0 = (romxSel s5.config s5.regs).toNat ∧
      (0x2000 ≤ (0x2FFF#16).toNat ∧ (0x2FFF#16).toNat ≤ 0x2FFF) ∧
      (0x3000 ≤ (0x3000#16).toNat ∧ (0x3000#16).toNat ≤ 0x3FFF)) ∧
    (0x4000 ≤ (0x5FFF#16).toNat ∧ (0x5FFF#16).toNat ≤ 0x5FFF) ∧
    (0x6000 ≤ (0x6000#16).toNat ∧ (0x6000#16).toNat ≤ 0x7FFF) := by decide

end Sys2Proof.Tests
end

section
/-! PROOFS. Scope (00_scope.md): the parameters of a block are constants, and `HAS_RAM` is read by NoMapper alone. -/

namespace Sys2Proof.Machine

/-! ## A step that takes a transaction -/

/-- A step takes the master's next transaction and, if a block exists, carries out its operation (R46, R122, R123). -/
theorem step_of_transaction {s : State} {tx : Transaction} {txs : List Transaction} (h : s.master = tx :: txs) :
    step s = if buildable s.config then exec (decodeTransaction s.config.family tx) (s.setMaster txs)
      else .refused .illegalConfiguration := by
  unfold step takeTransaction
  rw [h]
  rfl

/-! ## The parameters are constants (R2, R16, R29) -/

theorem ramWindowRead_config {a : Addr} {s t : State} (h : ramWindowRead a s = .next t) : t.config = s.config := by
  rcases ramWindowRead_cases a s with ⟨-, hr⟩ | ⟨-, ⟨b, o, -, hr⟩ | ⟨i, -, hr⟩ | ⟨-, hr⟩⟩ <;> rw [hr] at h <;> cases h
  · rfl
  · rfl
  · exact clockUsed_config s
  · rfl

theorem ramWindowWrite_config {a : Addr} {v : Byte} {s t : State} (h : ramWindowWrite a v s = .next t) :
    t.config = s.config := by
  rcases ramWindowWrite_cases a v s with ⟨-, hr⟩ | ⟨-, ⟨b, o, -, hr⟩ | ⟨i, -, hr⟩ | ⟨-, hr⟩⟩ <;> rw [hr] at h <;>
    cases h <;> rfl

/-- The Family2 read (R86) changes nothing but the response. -/
theorem execRdRamF2_eq_respond (a : Addr) (s : State) : ∃ r, execRdRamF2 a s = .next (s.respond r) := by
  unfold execRdRamF2
  split
  · split <;> exact ⟨_, rfl⟩
  · exact ⟨_, rfl⟩

/-- The Family2 write (R85) changes nothing but RAM and the response. -/
theorem execWrF2Ram_eq_respond (a : Addr) (v : Byte) (s : State) :
    ∃ m r, execWrF2Ram a v s = .next ((s.setRam m).respond r) := by
  unfold execWrF2Ram
  split
  · split
    · exact ⟨_, _, rfl⟩
    · exact ⟨s.ram, _, rfl⟩
    · exact ⟨s.ram, _, rfl⟩
  · exact ⟨s.ram, _, rfl⟩

/-- The secondary write of Family1 (R75) changes nothing but registers and the response. -/
theorem execWrF1Sec_eq_respond (a : Addr) (v : Byte) (s : State) :
    ∃ q r, execWrF1Sec a v s = .next ((s.setRegs q).respond r) := by
  unfold execWrF1Sec
  split
  · exact ⟨_, _, rfl⟩
  · split <;> exact ⟨_, _, rfl⟩

/-- No operation writes a parameter. -/
theorem exec_config {i : Instr} {s t : State} (h : exec i s = .next t) : t.config = s.config := by
  cases i with
  | cfgIllegal d a v => cases h
  | rdRamNm a | rdRamF1 a | rdRamF3 a | rdRamF5 a | rdRamF6 a => exact ramWindowRead_config h
  | wrNmRam a v | wrF1Ram a v | wrF3Ram a v | wrF5Ram a v | wrF6Ram a v => exact ramWindowWrite_config h
  | rdRamF2 a =>
    obtain ⟨r, hr⟩ := execRdRamF2_eq_respond a s
    cases hr.symm.trans h
    rfl
  | wrF2Ram a v =>
    obtain ⟨m, r, hr⟩ := execWrF2Ram_eq_respond a v s
    cases hr.symm.trans h
    rfl
  | wrF1Sec a v =>
    obtain ⟨q, r, hr⟩ := execWrF1Sec_eq_respond a v s
    cases hr.symm.trans h
    rfl
  | _ =>
    cases h
    rfl

theorem step_config {s t : State} (h : step s = .next t) : t.config = s.config := by
  cases hm : s.master with
  | nil =>
    rw [step_of_no_transaction hm] at h
    cases h
    rfl
  | cons tx txs =>
    rw [step_of_transaction hm] at h
    split at h
    · exact exec_config (s := s.setMaster txs) h
    · cases h

/-- A run that answers and has a step left has taken that step to a next state. -/
theorem step_of_runSteps_succ {n : Nat} {s t : State} (h : runSteps (n + 1) s = .next t) :
    ∃ u, step s = .next u ∧ runSteps n u = .next t := by
  cases hs : step s with
  | next u => exact ⟨u, rfl, runSteps_succ_of_next hs ▸ h⟩
  | fault f => cases f
  | refused r =>
    rw [runSteps_succ_of_refused hs] at h
    cases h

/-! ## `HAS_RAM` (R8) -/

/-- The same block with its strap `HAS_RAM` set to `x`. -/
def State.strapHasRam (x : Bool) (s : State) : State := { s with config := { s.config with hasRam := x } }

/-- Change the next state of an outcome that has one. -/
def mapNext (f : State → State) : Host.Outcome State Fault Refusal → Host.Outcome State Fault Refusal
  | .next s => .next (f s)
  | .fault r => .fault r
  | .refused r => .refused r

@[simp] theorem State.strapHasRam_family (x : Bool) (s : State) : (s.strapHasRam x).config.family = s.config.family := rfl

@[simp] theorem State.strapHasRam_secBinding (x : Bool) (s : State) :
    (s.strapHasRam x).config.secBinding = s.config.secBinding := rfl

@[simp] theorem State.strapHasRam_regs (x : Bool) (s : State) : (s.strapHasRam x).regs = s.regs := rfl

@[simp] theorem buildable_strapHasRam (x : Bool) (s : State) :
    buildable (s.strapHasRam x).config = buildable s.config := rfl

theorem ramTarget_strapHasRam (x : Bool) (s : State) (a : Addr) :
    ramTarget (s.strapHasRam x).config (s.strapHasRam x).regs a = ramTarget s.config s.regs a := rfl

theorem clockUsed_strapHasRam (x : Bool) (s : State) : clockUsed (s.strapHasRam x) = (clockUsed s).strapHasRam x := by
  cases hin : s.clkIn <;> simp [clockUsed, State.strapHasRam, State.setClock, hin]

/-- The gate is the one place where `HAS_RAM` is read, and only under NoMapper (R27). -/
theorem ramGate_strapHasRam {s : State} (hf : s.config.family ≠ some .noMapper) (x : Bool) :
    ramGate (s.strapHasRam x).config (s.strapHasRam x).regs = ramGate s.config s.regs := by
  unfold ramGate
  rw [State.strapHasRam_family]
  split
  · exact absurd ‹_› hf
  all_goals rfl

theorem ramWindowRead_strapHasRam {s : State} (hf : s.config.family ≠ some .noMapper) (x : Bool) (a : Addr) :
    ramWindowRead a (s.strapHasRam x) = mapNext (State.strapHasRam x) (ramWindowRead a s) := by
  unfold ramWindowRead
  rw [ramGate_strapHasRam hf, ramTarget_strapHasRam, clockUsed_strapHasRam]
  split
  · split <;> rfl
  · rfl

theorem ramWindowWrite_strapHasRam {s : State} (hf : s.config.family ≠ some .noMapper) (x : Bool) (a : Addr) (v : Byte) :
    ramWindowWrite a v (s.strapHasRam x) = mapNext (State.strapHasRam x) (ramWindowWrite a v s) := by
  unfold ramWindowWrite
  rw [ramGate_strapHasRam hf, ramTarget_strapHasRam]
  split
  · split <;> rfl
  · rfl

theorem execRdRamF2_strapHasRam {s : State} (hf : s.config.family ≠ some .noMapper) (x : Bool) (a : Addr) :
    execRdRamF2 a (s.strapHasRam x) = mapNext (State.strapHasRam x) (execRdRamF2 a s) := by
  unfold execRdRamF2
  rw [ramGate_strapHasRam hf, ramTarget_strapHasRam]
  split
  · split <;> rfl
  · rfl

theorem execWrF2Ram_strapHasRam {s : State} (hf : s.config.family ≠ some .noMapper) (x : Bool) (a : Addr) (v : Byte) :
    execWrF2Ram a v (s.strapHasRam x) = mapNext (State.strapHasRam x) (execWrF2Ram a v s) := by
  unfold execWrF2Ram
  rw [ramGate_strapHasRam hf, ramTarget_strapHasRam]
  split
  · split <;> rfl
  · rfl

theorem execWrF1Sec_strapHasRam (s : State) (x : Bool) (a : Addr) (v : Byte) :
    execWrF1Sec a v (s.strapHasRam x) = mapNext (State.strapHasRam x) (execWrF1Sec a v s) := by
  unfold execWrF1Sec
  rw [State.strapHasRam_secBinding, State.strapHasRam_regs]
  split
  · rfl
  · split <;> rfl

/-- Outside NoMapper every operation commutes with setting `HAS_RAM`. -/
theorem exec_strapHasRam {s : State} (hf : s.config.family ≠ some .noMapper) (x : Bool) (i : Instr) :
    exec i (s.strapHasRam x) = mapNext (State.strapHasRam x) (exec i s) := by
  cases i with
  | rdRamNm a | rdRamF1 a | rdRamF3 a | rdRamF5 a | rdRamF6 a => exact ramWindowRead_strapHasRam hf x a
  | wrNmRam a v | wrF1Ram a v | wrF3Ram a v | wrF5Ram a v | wrF6Ram a v => exact ramWindowWrite_strapHasRam hf x a v
  | rdRamF2 a => exact execRdRamF2_strapHasRam hf x a
  | wrF2Ram a v => exact execWrF2Ram_strapHasRam hf x a v
  | wrF1Sec a v => exact execWrF1Sec_strapHasRam s x a v
  | _ => rfl

/-- Outside NoMapper a step commutes with setting `HAS_RAM`. -/
theorem step_strapHasRam {s : State} (hf : s.config.family ≠ some .noMapper) (x : Bool) :
    step (s.strapHasRam x) = mapNext (State.strapHasRam x) (step s) := by
  cases hm : s.master with
  | nil =>
    rw [step_of_no_transaction hm, step_of_no_transaction (s := s.strapHasRam x) hm]
    rfl
  | cons tx txs =>
    rw [step_of_transaction hm, step_of_transaction (s := s.strapHasRam x) hm, buildable_strapHasRam,
      State.strapHasRam_family]
    split
    · exact exec_strapHasRam (s := s.setMaster txs) hf x _
    · rfl

/-! ## The statements -/

/-- Settles O45, by induction on the number of steps: no step writes a parameter. -/
theorem parametersNeverChange : Obligations.ParametersNeverChange := by
  intro n
  induction n with
  | zero =>
    intro s t h
    cases h
    rfl
  | succ n ih =>
    intro s t h
    obtain ⟨u, hu, hn⟩ := step_of_runSteps_succ h
    rw [ih u t hn, step_config hu]

/-- Settles O48: outside NoMapper a step commutes with setting `HAS_RAM`, as only NoMapper's gate reads it. -/
theorem hasRamMattersOnlyToNoMapper : Obligations.HasRamMattersOnlyToNoMapper := by
  intro s t x hf h
  have hstep := step_strapHasRam hf x
  rwa [h] at hstep

end Sys2Proof.Machine
end

section
/-! PROOFS. State (10_state.md): what one step can do to registers and RAM, the invariant of the reachable states, the
values after load, and the range of the bank indices. -/

namespace Sys2Proof.Machine

/-! ## Legal configurations (R122) -/

theorem buildable_iff (c : Config) :
    buildable c = true ↔ c.imageLen % 0x4000 = 0 ∧ c.imageLen ≠ 0 ∧ c.nRamBanks ≠ 0 := by
  simp [buildable, progBankSize, and_assoc]

theorem buildable_of_legal {c : Config} (h : legal c = true) : buildable c = true := by
  unfold legal at h
  exact (Bool.and_eq_true_iff.1 h).2

/-- The banks of a buildable image are the whole image, and there is at least one (R6). -/
theorem nRomBanks_of_buildable {c : Config} (h : buildable c = true) :
    c.nRomBanks * 0x4000 = c.imageLen ∧ 0 < c.nRomBanks := by
  obtain ⟨hmod, hne, -⟩ := (buildable_iff c).1 h
  unfold Config.nRomBanks progBankSize
  omega

theorem nRamBanks_pos_of_buildable {c : Config} (h : buildable c = true) : 0 < c.nRamBanks :=
  Nat.pos_of_ne_zero ((buildable_iff c).1 h).2.2

/-- A step that answers has found nothing presented, or has carried out a transaction of a legal configuration. -/
theorem step_next_cases {s t : State} (h : step s = .next t) :
    (s.master = [] ∧ t = s) ∨
    ∃ f tx txs, s.config.family = some f ∧ buildable s.config = true ∧ s.master = tx :: txs ∧
      exec (decode (some f) tx.dir tx.addr tx.data) (s.setMaster txs) = .next t := by
  cases hm : s.master with
  | nil =>
    rw [step_of_no_transaction hm] at h
    cases h
    exact .inl ⟨rfl, rfl⟩
  | cons tx txs =>
    rw [step_of_transaction hm] at h
    split at h
    · cases hf : s.config.family with
      | none =>
        rw [hf] at h
        cases h
      | some f =>
        rw [hf] at h
        exact .inr ⟨f, tx, txs, rfl, ‹_›, rfl, h⟩
    · cases h

/-! ## Reads change nothing of the block (R65) -/

theorem ramWindowRead_sameBlock {a : Addr} {s t : State} (h : ramWindowRead a s = .next t) : sameBlock s t := by
  rcases ramWindowRead_cases a s with ⟨-, hr⟩ | ⟨-, ⟨b, o, -, hr⟩ | ⟨i, -, hr⟩ | ⟨-, hr⟩⟩ <;> rw [hr] at h <;> cases h
  · exact ⟨rfl, rfl, rfl⟩
  · exact ⟨rfl, rfl, rfl⟩
  · exact ⟨clockUsed_config s, clockUsed_regs s, clockUsed_ram s⟩
  · exact ⟨rfl, rfl, rfl⟩

theorem exec_decodeRamRead_sameBlock {f : Family} {a : Addr} {s t : State}
    (h : exec (decodeRamRead f a) s = .next t) : sameBlock s t := by
  cases f with
  | noMapper | family1 | family3 | family5 | family6 => exact ramWindowRead_sameBlock h
  | family2 =>
    obtain ⟨r, hr⟩ := execRdRamF2_eq_respond a s
    cases hr.symm.trans h
    exact ⟨rfl, rfl, rfl⟩
  | family7 =>
    cases h
    exact ⟨rfl, rfl, rfl⟩

theorem exec_read_sameBlock {f : Family} {a : Addr} {v : Byte} {s t : State}
    (h : exec (decode (some f) .read a v) s = .next t) : sameBlock s t := by
  rcases decode_read_cases f a v with ⟨-, hd⟩ | ⟨-, -, hd⟩ | ⟨-, -, hd⟩ | ⟨-, -, hd⟩ | ⟨-, hd⟩ <;> rw [hd] at h
  case inr.inr.inr.inl => exact exec_decodeRamRead_sameBlock h
  all_goals
    cases h
    exact ⟨rfl, rfl, rfl⟩

/-! ## RAM-window writes store one cell, behind an open gate (R67) -/

/-- The byte a RAM-window write stores: under Family2 the low nibble of the value (R85), else the value. -/
def storedByte (c : Config) (v : Byte) : Byte := if c.family = some .family2 then (low4 v).setWidth 8 else v

theorem storedByte_family2_lt {c : Config} (hf : c.family = some .family2) (v : Byte) : (storedByte c v).toNat < 16 := by
  rw [storedByte, if_pos hf, BitVec.toNat_setWidth_of_le (by decide)]
  exact (low4 v).isLt

/-- A write of `v` at `a` stores one cell of the bank of the mux, behind an open gate, and changes nothing else of the
block (R67). -/
inductive StoresCell (a : Addr) (v : Byte) (s t : State) : Prop where
  | mk (b o : Nat) (gate : ramGate s.config s.regs = true) (target : ramTarget s.config s.regs a = .ram b o)
      (config : t.config = s.config) (regs : t.regs = s.regs)
      (ram : t.ram = s.ram.write (b * ramBankSize + o) (storedByte s.config v))

theorem ramWindowWrite_effect {a : Addr} {v : Byte} {s t : State} (hf : s.config.family ≠ some .family2)
    (h : ramWindowWrite a v s = .next t) : sameBlock s t ∨ StoresCell a v s t := by
  have byte : storedByte s.config v = v := if_neg hf
  rcases ramWindowWrite_cases a v s with ⟨-, hr⟩ | ⟨hg, ⟨b, o, ht, hr⟩ | ⟨i, -, hr⟩ | ⟨-, hr⟩⟩ <;> rw [hr] at h <;>
    cases h
  case inr.inl => exact .inr ⟨b, o, hg, ht, rfl, rfl, by rw [byte]⟩
  all_goals exact .inl ⟨rfl, rfl, rfl⟩

theorem execWrF2Ram_effect {a : Addr} {v : Byte} {s t : State} (hf : s.config.family = some .family2)
    (h : execWrF2Ram a v s = .next t) : sameBlock s t ∨ StoresCell a v s t := by
  have byte : storedByte s.config v = (low4 v).setWidth 8 := if_pos hf
  unfold execWrF2Ram at h
  split at h
  · split at h <;> cases h
    · exact .inr ⟨_, _, ‹_›, ‹_›, rfl, rfl, by rw [byte]; rfl⟩
    · exact .inl ⟨rfl, rfl, rfl⟩
    · exact .inl ⟨rfl, rfl, rfl⟩
  · cases h
    exact .inl ⟨rfl, rfl, rfl⟩

theorem exec_decodeRamWrite_effect {f : Family} {a : Addr} {v : Byte} {s t : State} (hf : s.config.family = some f)
    (h : exec (decodeRamWrite f a v) s = .next t) : sameBlock s t ∨ StoresCell a v s t := by
  cases f with
  | noMapper | family1 | family3 | family5 | family6 => exact ramWindowWrite_effect (by simp [hf]) h
  | family2 => exact execWrF2Ram_effect hf h
  | family7 =>
    cases h
    exact .inl ⟨rfl, rfl, rfl⟩

/-! ## Register writes, family by family (R55) -/

/-- The registers a program-window write can leave, family by family, in a configuration `c` with the registers `r`: one
register of the family loaded, or none. -/
inductive RegWrite (c : Config) (r : Regs) (v : Byte) : Family → Regs → Prop where
  | kept (f) : RegWrite c r v f r
  | enable (f) (hf : f = .family1 ∨ f = .family2 ∨ f = .family3 ∨ f = .family5) :
      RegWrite c r v f { r with ramEn := enableValue v }
  | f1BankLo : RegWrite c r v .family1 { r with bank1 := bank1SetLow5 r.bank1 (remapZero (low5 v)) }
  | f1Sec (hb : c.secBinding = .atAccess) : RegWrite c r v .family1 { r with sec := low2 v }
  | f1SecRamsel (hb : c.secBinding = .atWrite) (hmode : r.mode = true) :
      RegWrite c r v .family1 { r with ramsel := ramselSetLow2 r.ramsel (low2 v) }
  | f1SecBank (hb : c.secBinding = .atWrite) (hmode : r.mode = false) :
      RegWrite c r v .family1 { r with bank1 := bank1SetBits65 r.bank1 (low2 v) }
  | f1Mode : RegWrite c r v .family1 { r with mode := low1 v == 1#1 }
  | f2Bank : RegWrite c r v .family2 { r with bank1 := bank1SetLow4 r.bank1 (remapZero (low4 v)) }
  | f3Bank : RegWrite c r v .family3 { r with bank1 := bank1SetLow7 r.bank1 (remapZero (low7 v)) }
  | ramsel (f) (hf : f = .family3 ∨ f = .family5) : RegWrite c r v f { r with ramsel := low4 v }
  | f5BankLo : RegWrite c r v .family5 { r with bank1 := bank1SetLow8 r.bank1 v }
  | f5BankHi : RegWrite c r v .family5 { r with bank1 := bank1SetBit8 r.bank1 (low1 v) }

/-- A program-window write loads a register of its family, or none, and leaves parameters and RAM alone. -/
def LoadsRegs (f : Family) (v : Byte) (s t : State) : Prop :=
  RegWrite s.config s.regs v f t.regs ∧ t.config = s.config ∧ t.ram = s.ram

theorem execWrF1Sec_loads {a : Addr} {v : Byte} {s t : State} (h : execWrF1Sec a v s = .next t) :
    LoadsRegs .family1 v s t := by
  unfold execWrF1Sec at h
  split at h
  · cases h
    exact ⟨.f1Sec ‹_›, rfl, rfl⟩
  · split at h <;> cases h
    · exact ⟨.f1SecRamsel ‹_› ‹_›, rfl, rfl⟩
    · exact ⟨.f1SecBank ‹_› (Bool.eq_false_of_not_eq_true ‹_›), rfl, rfl⟩

theorem exec_decodeF1_loads {a : Addr} {v : Byte} {s t : State} (h : exec (decodeF1 a v) s = .next t) :
    LoadsRegs .family1 v s t := by
  unfold decodeF1 at h
  split_ifs at h
  · cases h
    exact ⟨.enable _ (by simp), rfl, rfl⟩
  · cases h
    exact ⟨.f1BankLo, rfl, rfl⟩
  · exact execWrF1Sec_loads (a := a) h
  · cases h
    exact ⟨.f1Mode, rfl, rfl⟩

theorem exec_decodeF2_loads {a : Addr} {v : Byte} {s t : State} (h : exec (decodeF2 a v) s = .next t) :
    LoadsRegs .family2 v s t := by
  unfold decodeF2 at h
  split_ifs at h <;> cases h
  · exact ⟨.kept _, rfl, rfl⟩
  · exact ⟨.enable _ (by simp), rfl, rfl⟩
  · exact ⟨.f2Bank, rfl, rfl⟩
  · exact ⟨.kept _, rfl, rfl⟩
  · exact ⟨.kept _, rfl, rfl⟩

theorem exec_decodeF3_loads {a : Addr} {v : Byte} {s t : State} (h : exec (decodeF3 a v) s = .next t) :
    LoadsRegs .family3 v s t := by
  unfold decodeF3 at h
  split_ifs at h <;> cases h
  · exact ⟨.enable _ (by simp), rfl, rfl⟩
  · exact ⟨.f3Bank, rfl, rfl⟩
  · exact ⟨.ramsel _ (by simp), rfl, rfl⟩
  · exact ⟨.kept _, rfl, rfl⟩

theorem exec_decodeF5_loads {a : Addr} {v : Byte} {s t : State} (h : exec (decodeF5 a v) s = .next t) :
    LoadsRegs .family5 v s t := by
  unfold decodeF5 at h
  split_ifs at h <;> cases h
  · exact ⟨.enable _ (by simp), rfl, rfl⟩
  · exact ⟨.f5BankLo, rfl, rfl⟩
  · exact ⟨.f5BankHi, rfl, rfl⟩
  · exact ⟨.ramsel _ (by simp), rfl, rfl⟩
  · exact ⟨.kept _, rfl, rfl⟩

theorem exec_decodeRegWrite_loads {f : Family} {a : Addr} {v : Byte} {s t : State}
    (h : exec (decodeRegWrite f a v) s = .next t) : LoadsRegs f v s t := by
  cases f with
  | family1 => exact exec_decodeF1_loads h
  | family2 => exact exec_decodeF2_loads h
  | family3 => exact exec_decodeF3_loads h
  | family5 => exact exec_decodeF5_loads h
  | noMapper | family6 | family7 =>
    cases h
    exact ⟨.kept _, rfl, rfl⟩

/-! ## What a step can do to the block -/

/-- A step leaves the block alone, or is a program-window write that loads a register, or is a RAM-window write that stores
a cell. -/
inductive BlockEffect (s t : State) : Prop where
  | unchanged (same : sameBlock s t)
  | register (f : Family) (tx : Transaction) (txs : List Transaction) (family : s.config.family = some f)
      (presented : s.master = tx :: txs) (dir : tx.dir = .write) (addr : inProgramWindow tx.addr)
      (loads : LoadsRegs f tx.data s t)
  | store (tx : Transaction) (txs : List Transaction) (built : buildable s.config = true)
      (presented : s.master = tx :: txs) (dir : tx.dir = .write) (addr : inRamWindow tx.addr)
      (stores : StoresCell tx.addr tx.data s t)

theorem step_blockEffect {s t : State} (h : step s = .next t) : BlockEffect s t := by
  rcases step_next_cases h with ⟨-, rfl⟩ | ⟨f, ⟨d, a, v⟩, txs, hf, hb, hm, he⟩
  · exact .unchanged ⟨rfl, rfl, rfl⟩
  · cases d with
    | read => exact .unchanged (exec_read_sameBlock (s := s.setMaster txs) he)
    | write =>
      rcases decode_write_cases f a v with ⟨ha, hd⟩ | ⟨-, -, hd⟩ | ⟨ha, ha', hd⟩ | ⟨-, hd⟩ <;> rw [hd] at he
      · exact .register f _ txs hf hm rfl ha (exec_decodeRegWrite_loads (s := s.setMaster txs) he)
      · cases he
        exact .unchanged ⟨rfl, rfl, rfl⟩
      · rcases exec_decodeRamWrite_effect (s := s.setMaster txs) hf he with same | ⟨b, o, hg, ht, hc, hr, hw⟩
        · exact .unchanged same
        · exact .store _ txs hb hm rfl ⟨ha, ha'⟩ ⟨b, o, hg, ht, hc, hr, hw⟩
      · cases he
        exact .unchanged ⟨rfl, rfl, rfl⟩

/-! ## The invariant of the registers (R32) -/

theorem regsInv_family1_atAccess_iff {c : Config} (hf : c.family = some .family1) (hb : c.secBinding = .atAccess)
    (r : Regs) : regsInv c r = true ↔ r.bank1.toNat % 32 ≠ 0 ∧ r.bank1.toNat < 32 ∧ r.ramsel = 0#4 := by
  simp only [regsInv, hf, hb, decide_eq_true_iff]

theorem regsInv_family1_atWrite_iff {c : Config} (hf : c.family = some .family1) (hb : c.secBinding = .atWrite)
    (r : Regs) : regsInv c r = true ↔
      r.bank1.toNat % 32 ≠ 0 ∧ r.bank1.toNat < 128 ∧ r.sec = 0#2 ∧ r.ramsel.toNat < 4 := by
  simp only [regsInv, hf, hb, decide_eq_true_iff]

theorem regsInv_family2_iff {c : Config} (hf : c.family = some .family2) (r : Regs) : regsInv c r = true ↔
    r.bank1.toNat ≠ 0 ∧ r.bank1.toNat < 16 ∧ r.sec = 0#2 ∧ r.mode = c.modeReset ∧ r.ramsel = 0#4 := by
  simp only [regsInv, hf, decide_eq_true_iff]

theorem regsInv_family3_iff {c : Config} (hf : c.family = some .family3) (r : Regs) : regsInv c r = true ↔
    r.bank1.toNat ≠ 0 ∧ r.bank1.toNat < 128 ∧ r.sec = 0#2 ∧ r.mode = c.modeReset := by
  simp only [regsInv, hf, decide_eq_true_iff]

theorem regsInv_family5_iff {c : Config} (hf : c.family = some .family5) (r : Regs) : regsInv c r = true ↔
    r.sec = 0#2 ∧ r.mode = c.modeReset := by
  simp only [regsInv, hf, decide_eq_true_iff]

/-- The invariant says nothing of `ram_en` in the families that have it. -/
theorem regsInv_setRamEn {c : Config} {f : Family} (hf : c.family = some f)
    (hw : f = .family1 ∨ f = .family2 ∨ f = .family3 ∨ f = .family5) (r : Regs) (e : Bool) :
    regsInv c { r with ramEn := e } = regsInv c r := by
  unfold regsInv
  rcases hw with rfl | rfl | rfl | rfl <;> simp only [hf]

/-- Every register write keeps the invariant: a bank field is remapped away from 0 where the family wants that, and no bit
above those in use is set (R32(a) to (c)). -/
theorem regWrite_keeps_regsInv {c : Config} {f : Family} {r q : Regs} {v : Byte} (hf : c.family = some f)
    (hw : RegWrite c r v f q) (hi : regsInv c r = true) : regsInv c q = true := by
  cases hw with
  | kept => exact hi
  | enable _ hfs => rwa [regsInv_setRamEn hf hfs]
  | f1BankLo =>
    have hne := remapZero_ne_zero (by decide) (low5 v)
    have hlt := (remapZero (low5 v)).isLt
    cases hb : c.secBinding with
    | atAccess =>
      rw [regsInv_family1_atAccess_iff hf hb] at hi ⊢
      obtain ⟨-, hb1, hsel⟩ := hi
      simp only [toNat_bank1SetLow5]
      exact ⟨by omega, by omega, hsel⟩
    | atWrite =>
      rw [regsInv_family1_atWrite_iff hf hb] at hi ⊢
      obtain ⟨-, hb1, hrest⟩ := hi
      simp only [toNat_bank1SetLow5]
      exact ⟨by omega, by omega, hrest⟩
  | f1Sec hb => rwa [regsInv_family1_atAccess_iff hf hb] at hi ⊢
  | f1SecRamsel hb _ =>
    rw [regsInv_family1_atWrite_iff hf hb] at hi ⊢
    obtain ⟨hne, hb1, hsec, hsel⟩ := hi
    have := (low2 v).isLt
    simp only [toNat_ramselSetLow2]
    exact ⟨hne, hb1, hsec, by omega⟩
  | f1SecBank hb _ =>
    rw [regsInv_family1_atWrite_iff hf hb] at hi ⊢
    obtain ⟨hne, hb1, hrest⟩ := hi
    have := (low2 v).isLt
    simp only [toNat_bank1SetBits65]
    exact ⟨by omega, by omega, hrest⟩
  | f1Mode =>
    cases hb : c.secBinding with
    | atAccess => rwa [regsInv_family1_atAccess_iff hf hb] at hi ⊢
    | atWrite => rwa [regsInv_family1_atWrite_iff hf hb] at hi ⊢
  | f2Bank =>
    rw [regsInv_family2_iff hf] at hi ⊢
    obtain ⟨-, hb1, hrest⟩ := hi
    have hne := remapZero_ne_zero (by decide) (low4 v)
    have hlt := (remapZero (low4 v)).isLt
    simp only [toNat_bank1SetLow4]
    exact ⟨by omega, by omega, hrest⟩
  | f3Bank =>
    rw [regsInv_family3_iff hf] at hi ⊢
    obtain ⟨-, hb1, hrest⟩ := hi
    have hne := remapZero_ne_zero (by decide) (low7 v)
    have hlt := (remapZero (low7 v)).isLt
    simp only [toNat_bank1SetLow7]
    exact ⟨by omega, by omega, hrest⟩
  | ramsel _ hfs =>
    rcases hfs with rfl | rfl
    · rwa [regsInv_family3_iff hf] at hi ⊢
    · rwa [regsInv_family5_iff hf] at hi ⊢
  | f5BankLo | f5BankHi => rwa [regsInv_family5_iff hf] at hi ⊢

/-- Only Families 1, 2, 3 and 5 have a register to load. -/
theorem regWrite_family {c : Config} {f : Family} {r q : Regs} {v : Byte} (hw : RegWrite c r v f q) (hne : q ≠ r) :
    f = .family1 ∨ f = .family2 ∨ f = .family3 ∨ f = .family5 := by
  cases hw with
  | kept => exact absurd rfl hne
  | enable _ hfs => exact hfs
  | ramsel _ hfs => exact .inr (.inr hfs)
  | f1BankLo | f1Sec | f1SecRamsel | f1SecBank | f1Mode => exact .inl rfl
  | f2Bank => exact .inr (.inl rfl)
  | f3Bank => exact .inr (.inr (.inl rfl))
  | f5BankLo | f5BankHi => exact .inr (.inr (.inr rfl))

/-- The load values have the register invariant, in every family and under both bindings (R33). -/
theorem regsInv_atLoad (c : Config) : regsInv c (Regs.atLoad c) = true := by
  unfold regsInv
  split
  case h_3 => split <;> simp
  all_goals simp

theorem inv_atLoad {c : Config} {m : Memory} (hm : m.wf) (hmb : m.below (c.nRamBanks * ramBankSize))
    (hi : c.image.wf) (hib : c.image.below c.imageLen) : Inv (State.atLoad c m) :=
  ⟨regsInv_atLoad c, hm, hmb, hi, hib⟩

/-! ## The upper-window selector (R38) -/

theorem toNat_setWidth_lowBits {k : Nat} (hk : k ≤ 9) (b : BitVec 9) :
    ((b.extractLsb' 0 k).setWidth 9).toNat = b.toNat % 2 ^ k := by
  rw [BitVec.toNat_setWidth_of_le hk, BitVec.extractLsb'_toNat, Nat.shiftRight_zero]

theorem toNat_romxSel_family1_atAccess {c : Config} (hf : c.family = some .family1) (hb : c.secBinding = .atAccess)
    (r : Regs) : (romxSel c r).toNat = (if r.mode then 0 else 32 * r.sec.toNat) + r.bank1.toNat % 32 := by
  simp only [romxSel, hf, hb]
  split
  · rw [toNat_setWidth_lowBits (by decide), Nat.zero_add]
    rfl
  · rw [BitVec.toNat_setWidth_of_le (by decide), toNat_append_eq, BitVec.extractLsb'_toNat, Nat.shiftRight_zero,
      Nat.mul_comm]
    rfl

theorem toNat_romxSel_family1_atWrite {c : Config} (hf : c.family = some .family1) (hb : c.secBinding = .atWrite)
    (r : Regs) : (romxSel c r).toNat = r.bank1.toNat % 128 := by
  simp only [romxSel, hf, hb]
  exact toNat_setWidth_lowBits (by decide) _

theorem toNat_romxSel_family2 {c : Config} (hf : c.family = some .family2) (r : Regs) :
    (romxSel c r).toNat = r.bank1.toNat % 16 := by
  simp only [romxSel, hf]
  exact toNat_setWidth_lowBits (by decide) _

theorem toNat_romxSel_family3 {c : Config} (hf : c.family = some .family3) (r : Regs) :
    (romxSel c r).toNat = r.bank1.toNat % 128 := by
  simp only [romxSel, hf]
  exact toNat_setWidth_lowBits (by decide) _

/-! ## The statements -/

/-- Settles O43: by what a step can do to the block, no step breaks the invariant. -/
theorem stepKeepsInvariant : Obligations.StepKeepsInvariant := by
  intro s t hi h
  obtain ⟨hregs, hwf, hbelow, himage⟩ := hi
  cases step_blockEffect h with
  | unchanged same =>
    obtain ⟨hc, hr, hm⟩ := same
    rw [Inv, memInv, hc, hr, hm]
    exact ⟨hregs, hwf, hbelow, himage⟩
  | register f tx txs hf _ _ _ loads =>
    obtain ⟨hw, hc, hm⟩ := loads
    rw [Inv, memInv, hc, hm]
    exact ⟨regWrite_keeps_regsInv hf hw hregs, hwf, hbelow, himage⟩
  | store tx txs hb _ _ _ stores =>
    obtain ⟨b, o, _, ht, hc, hr, hm⟩ := stores
    have hlt := ram_linear_lt (nRamBanks_pos_of_buildable hb) ht
    rw [Inv, memInv, hc, hr, hm]
    exact ⟨hregs, Memory.wf_write hwf _ _, Memory.below_write hbelow hlt _, himage⟩

/-- Settles O46, by what a step can do to the block. -/
theorem onlyWritesChangeTheBlock : Obligations.OnlyWritesChangeTheBlock := by
  intro s t tx txs _ hm h
  cases step_blockEffect h with
  | unchanged same =>
    obtain ⟨-, hr, hram⟩ := same
    exact ⟨fun hne => absurd hr hne, fun hne => absurd hram hne⟩
  | register f tx' txs' hf hm' dir addr loads =>
    obtain ⟨rfl, -⟩ := List.cons.inj (hm.symm.trans hm')
    obtain ⟨hw, -, hram⟩ := loads
    refine ⟨fun hne => ⟨dir, addr, ?_⟩, fun hne => absurd hram hne⟩
    simpa only [hf, Option.some.injEq] using regWrite_family hw hne
  | store tx' txs' _ hm' dir addr stores =>
    obtain ⟨rfl, -⟩ := List.cons.inj (hm.symm.trans hm')
    obtain ⟨b, o, gate, _, _, hr, _⟩ := stores
    exact ⟨fun hne => absurd hr hne, fun _ => ⟨dir, addr, gate⟩⟩

/-- Settles O50: what a step stores under Family2 has four bits, and the other cells were there before. -/
theorem family2CellsStayFourBits : Obligations.Family2CellsStayFourBits := by
  intro s t hf hcells h c hc
  cases step_blockEffect h with
  | unchanged same =>
    obtain ⟨-, -, hram⟩ := same
    exact hcells c (hram ▸ hc)
  | register f tx txs _ _ _ _ loads =>
    obtain ⟨-, -, hram⟩ := loads
    exact hcells c (hram ▸ hc)
  | store tx txs _ _ _ _ stores =>
    obtain ⟨b, o, _, _, _, _, hram⟩ := stores
    rw [hram] at hc
    rcases Memory.mem_write hc with ⟨rfl, -⟩ | hc
    · exact storedByte_family2_lt hf _
    · exact hcells c hc

/-- Settles O17: a wrapped index is below its bank count, and the banks are the whole array. -/
theorem bankIndicesAreInRange : Obligations.BankIndicesAreInRange := by
  intro c r a hl
  have hb := buildable_of_legal hl
  obtain ⟨himage, hrom⟩ := nRomBanks_of_buildable hb
  have hram := nRamBanks_pos_of_buildable hb
  have hidx : romxIdx c r < c.nRomBanks := Nat.mod_lt _ hrom
  have hsel : romxIdx c r ≤ 511 := (Nat.mod_le _ _).trans (Nat.le_of_lt_succ (romxSel c r).isLt)
  have hlinear : romxIdx c r * 0x4000 + romOffset a < c.imageLen := by
    rw [romOffset_eq]
    omega
  exact ⟨hidx, hsel, Nat.mod_lt _ hram, hlinear, fun b o ht => ram_linear_lt hram ht⟩

/-- Settles O18: the selector shows the bits of `bank1` that the invariant keeps non-zero. -/
theorem selectorIsNeverZero : Obligations.SelectorIsNeverZero := by
  intro s f hf hfs hi
  obtain ⟨hregs, -⟩ := hi
  rcases hfs with rfl | rfl | rfl
  · cases hb : s.config.secBinding with
    | atAccess =>
      obtain ⟨hne, -⟩ := (regsInv_family1_atAccess_iff hf hb _).1 hregs
      rw [toNat_romxSel_family1_atAccess hf hb]
      omega
    | atWrite =>
      obtain ⟨hne, -⟩ := (regsInv_family1_atWrite_iff hf hb _).1 hregs
      rw [toNat_romxSel_family1_atWrite hf hb]
      omega
  · obtain ⟨hne, hlt, -⟩ := (regsInv_family2_iff hf _).1 hregs
    rw [toNat_romxSel_family2 hf]
    omega
  · obtain ⟨hne, hlt, -⟩ := (regsInv_family3_iff hf _).1 hregs
    rw [toNat_romxSel_family3 hf]
    omega

/-- Settles O8: a buildable image lets a step carry out the operation its transaction decodes to. -/
theorem stepRunsDecodedTransaction : Obligations.StepRunsDecodedTransaction := by
  intro s tx txs hb hm
  rw [step_of_transaction hm, if_pos hb]
  rfl

/-- Settles O44: the load values have the register invariant, and the memories are assumed canonical; those of the reset
state are blank. -/
theorem loadStatesHaveInvariant : Obligations.LoadStatesHaveInvariant :=
  ⟨inv_atLoad Memory.wf_nil (by simp) Memory.wf_nil (by simp [Config.specDefaults]), fun _ _ => inv_atLoad⟩

/-- Settles O52: the values of R125 field by field, and the reset cartridge has one blank bank and zeroed RAM. -/
theorem valuesAfterLoad : Obligations.ValuesAfterLoad := by
  refine ⟨fun c m => ⟨rfl, rfl, rfl, rfl, rfl, rfl, rfl, rfl⟩, rfl, Memory.read_nil, ?_, rfl, rfl, rfl, rfl, rfl⟩
  decide

end Sys2Proof.Machine
end

section
/-! PROOFS. Memory (20_memory.md): the windows, the bank selector mux family by family, what a RAM-window access stores and
reads, and RAM behind a closed gate. -/

namespace Sys2Proof.Machine

/-! ## A step of a legal configuration -/

theorem family_of_legal {c : Config} (h : legal c = true) : ∃ f, c.family = some f := by
  unfold legal at h
  exact Option.isSome_iff_exists.1 (Bool.and_eq_true_iff.1 h).1

/-- Under a legal configuration a step carries out the operation its transaction decodes to. -/
theorem step_of_family {s : State} {f : Family} {tx : Transaction} {txs : List Transaction}
    (hf : s.config.family = some f) (hb : buildable s.config = true) (hm : s.master = tx :: txs) :
    step s = exec (decode (some f) tx.dir tx.addr tx.data) (s.setMaster txs) := by
  rw [step_of_transaction hm, if_pos hb, hf]
  rfl

/-! ## The windows (R35, R37) -/

/-- An access to an invalid window raises `InvalidAddress`, a read and a write alike (R35, R107). -/
theorem exec_decode_of_invalid_window {a : Addr} (h : window a = .invalid8 ∨ window a = .invalidC) (f : Family) (d : Dir)
    (v : Byte) (s : State) : exec (decode (some f) d a v) s = raiseError .invalidAddress s := by
  rcases h with h | h <;> cases d <;> simp only [decode, h] <;> rfl

theorem romOffset_of_le {a : Addr} (h : a.toNat ≤ 0x3FFF) : romOffset a = a.toNat := by
  rw [romOffset_eq, Nat.mod_eq_of_lt (by omega)]

/-! ## The RAM bank (R39) -/

theorem ramIdx_of_ramSel_zero {c : Config} {r : Regs} (h : ramSel c r = 0#4) : ramIdx c r = 0 := by
  rw [ramIdx, h]
  exact Nat.zero_mod _

theorem ramSel_family2 {c : Config} (hf : c.family = some .family2) (r : Regs) : ramSel c r = 0#4 := by
  simp only [ramSel, hf]

theorem toNat_ramSel_family1_atAccess {c : Config} (hf : c.family = some .family1) (hb : c.secBinding = .atAccess)
    (r : Regs) : (ramSel c r).toNat = if r.mode then r.sec.toNat else 0 := by
  simp only [ramSel, hf, hb]
  split
  · exact BitVec.toNat_setWidth_of_le (by decide)
  · rfl

theorem toNat_ramSel_family1_atWrite {c : Config} (hf : c.family = some .family1) (hb : c.secBinding = .atWrite)
    (r : Regs) : (ramSel c r).toNat = r.ramsel.toNat % 4 := by
  simp only [ramSel, hf, hb]
  rw [BitVec.toNat_setWidth_of_le (by decide), BitVec.extractLsb'_toNat, Nat.shiftRight_zero]

/-! ## The RAM target (R40) -/

theorem ramOffset_of_ramWindow {a : Addr} (h : inRamWindow a) : ramOffset a = a.toNat - 0xA000 := by
  obtain ⟨hlo, hhi⟩ := h
  rw [ramOffset_eq]
  omega

theorem cellOffset_of_cellRegion {a : Addr} (h : inRamWindow a) (hcell : a.toNat ≤ 0xA1FF) :
    cellOffset a = a.toNat - 0xA000 := by
  obtain ⟨hlo, -⟩ := h
  rw [cellOffset_eq]
  omega

theorem ramTarget_family2 {c : Config} (hf : c.family = some .family2) (r : Regs) (a : Addr) :
    ramTarget c r a = if a.toNat ≤ 0xA1FF then .ram 0 (cellOffset a) else .nothing := by
  simp only [ramTarget, hf, inCellRegion, decide_eq_true_iff, ramIdx_of_ramSel_zero (ramSel_family2 hf r)]

theorem ramTarget_family3 {c : Config} (hf : c.family = some .family3) (r : Regs) (a : Addr) :
    ramTarget c r a = if r.ramsel.toNat ≤ 7 then .ram (ramIdx c r) (ramOffset a)
      else if r.ramsel.toNat ≤ 12 then .clock r.ramsel else .nothing := by
  simp only [ramTarget, hf]

theorem ramTarget_family7 {c : Config} (hf : c.family = some .family7) (r : Regs) (a : Addr) :
    ramTarget c r a = .nothing := by
  simp only [ramTarget, hf]

/-! ## A RAM-window access that reaches a cell (R62, R67) -/

theorem ramWindowRead_of_ramTarget {s : State} {a : Addr} {b o : Nat} (hg : ramGate s.config s.regs = true)
    (ht : ramTarget s.config s.regs a = .ram b o) :
    ramWindowRead a s = .next { s with last := some ⟨.ok, some (ramRead s b o), .ram b o none⟩ } := by
  simp only [ramWindowRead, hg, ht, if_true, endRead_eq]

theorem ramWindowWrite_of_ramTarget {s : State} {a : Addr} {b o : Nat} (hg : ramGate s.config s.regs = true)
    (ht : ramTarget s.config s.regs a = .ram b o) (v : Byte) :
    ramWindowWrite a v s = .next { s with
      ram := s.ram.write (b * ramBankSize + o) v, last := some ⟨.ok, none, .ram b o (some v)⟩ } := by
  simp only [ramWindowWrite, hg, ht, if_true, endWrite_eq]
  rfl

theorem decode_read_of_ramWindow {a : Addr} (h : inRamWindow a) (f : Family) (v : Byte) :
    decode (some f) .read a v = decodeRamRead f a := by
  simp only [decode, (window_eq_ramWin_iff a).2 h]

theorem decode_write_of_ramWindow {a : Addr} (h : inRamWindow a) (f : Family) (v : Byte) :
    decode (some f) .write a v = decodeRamWrite f a v := by
  simp only [decode, (window_eq_ramWin_iff a).2 h]

/-- Outside Family2 and Family7 a read of the RAM window is the common procedure (R62). -/
theorem exec_decodeRamRead_eq_ramWindowRead {f : Family} (h2 : f ≠ .family2) (h7 : f ≠ .family7) (a : Addr) (s : State) :
    exec (decodeRamRead f a) s = ramWindowRead a s := by
  cases f with
  | family2 => exact absurd rfl h2
  | family7 => exact absurd rfl h7
  | noMapper | family1 | family3 | family5 | family6 => rfl

/-- Outside Family2 and Family7 a write to the RAM window is the common procedure (R67). -/
theorem exec_decodeRamWrite_eq_ramWindowWrite {f : Family} (h2 : f ≠ .family2) (h7 : f ≠ .family7) (a : Addr)
    (v : Byte) (s : State) : exec (decodeRamWrite f a v) s = ramWindowWrite a v s := by
  cases f with
  | family2 => exact absurd rfl h2
  | family7 => exact absurd rfl h7
  | noMapper | family1 | family3 | family5 | family6 => rfl

/-- A family outside Family2 that reaches a cell is one with the common procedures: Family7 reaches none. -/
theorem family_of_ramTarget {c : Config} {r : Regs} {a : Addr} {b o : Nat} (hl : legal c = true)
    (hf2 : c.family ≠ some .family2) (ht : ramTarget c r a = .ram b o) :
    ∃ f, c.family = some f ∧ f ≠ .family2 ∧ f ≠ .family7 := by
  obtain ⟨f, hf⟩ := family_of_legal hl
  refine ⟨f, hf, fun h2 => hf2 (h2 ▸ hf), fun h7 => ?_⟩
  rw [ramTarget_family7 (h7 ▸ hf)] at ht
  cases ht

section

variable {s : State} {a : Addr} {b o : Nat} {txs : List Transaction} (hl : legal s.config = true)
  (hf2 : s.config.family ≠ some .family2) (ha : inRamWindow a) (hg : ramGate s.config s.regs = true)
  (ht : ramTarget s.config s.regs a = .ram b o)

include hl hf2 ha hg ht

theorem step_read_of_ramTarget (hm : s.master = rd a :: txs) : step s = .next { s with
    master := txs, last := some ⟨.ok, some (ramRead s b o), .ram b o none⟩ } := by
  obtain ⟨f, hf, h2, h7⟩ := family_of_ramTarget hl hf2 ht
  rw [step_of_family hf (buildable_of_legal hl) hm]
  simp only [rd]
  rw [decode_read_of_ramWindow ha, exec_decodeRamRead_eq_ramWindowRead h2 h7]
  exact ramWindowRead_of_ramTarget (s := s.setMaster txs) hg ht

theorem step_write_of_ramTarget {v : Byte} (hm : s.master = wr a v :: txs) : step s = .next { s with
    ram := s.ram.write (b * ramBankSize + o) v, master := txs, last := some ⟨.ok, none, .ram b o (some v)⟩ } := by
  obtain ⟨f, hf, h2, h7⟩ := family_of_ramTarget hl hf2 ht
  rw [step_of_family hf (buildable_of_legal hl) hm]
  simp only [wr]
  rw [decode_write_of_ramWindow ha, exec_decodeRamWrite_eq_ramWindowWrite h2 h7]
  exact ramWindowWrite_of_ramTarget (s := s.setMaster txs) hg ht v

end

/-! ## RAM behind a closed gate (R42) -/

theorem ramWindowRead_of_gate_closed {s : State} (hg : ramGate s.config s.regs = false) (a : Addr) :
    ramWindowRead a s = .next { s with last := some ⟨.ok, some s.config.openBus, .idle⟩ } := by
  simp [ramWindowRead, hg]

theorem ramWindowWrite_of_gate_closed {s : State} (hg : ramGate s.config s.regs = false) (a : Addr) (v : Byte) :
    ramWindowWrite a v s = .next { s with last := some wroteNothing } := by
  simp [ramWindowWrite, hg, wroteNothing]

theorem execRdRamF2_of_gate_closed {s : State} (hg : ramGate s.config s.regs = false) (a : Addr) :
    execRdRamF2 a s = .next { s with last := some ⟨.ok, some s.config.openBus, .idle⟩ } := by
  simp [execRdRamF2, hg]

theorem execWrF2Ram_of_gate_closed {s : State} (hg : ramGate s.config s.regs = false) (a : Addr) (v : Byte) :
    execWrF2Ram a v s = .next { s with last := some wroteNothing } := by
  simp [execWrF2Ram, hg, wroteNothing]

theorem execWrF1Sec_setRam (s : State) (m : Memory) (a : Addr) (v : Byte) :
    execWrF1Sec a v (s.setRam m) = mapNext (State.setRam m) (execWrF1Sec a v s) := by
  unfold execWrF1Sec
  rw [State.setRam_config, State.setRam_regs]
  split
  · rfl
  · split <;> rfl

/-- Behind a closed gate every operation commutes with replacing the RAM contents: none reads or stores a cell. -/
theorem exec_setRam_of_gate_closed {s : State} (hg : ramGate s.config s.regs = false) (m : Memory) (i : Instr) :
    exec i (s.setRam m) = mapNext (State.setRam m) (exec i s) := by
  have hgm : ramGate (s.setRam m).config (s.setRam m).regs = false := hg
  cases i with
  | rdRamNm a | rdRamF1 a | rdRamF3 a | rdRamF5 a | rdRamF6 a =>
    show ramWindowRead a (s.setRam m) = mapNext _ (ramWindowRead a s)
    rw [ramWindowRead_of_gate_closed hg, ramWindowRead_of_gate_closed hgm]
    rfl
  | wrNmRam a v | wrF1Ram a v | wrF3Ram a v | wrF5Ram a v | wrF6Ram a v =>
    show ramWindowWrite a v (s.setRam m) = mapNext _ (ramWindowWrite a v s)
    rw [ramWindowWrite_of_gate_closed hg, ramWindowWrite_of_gate_closed hgm]
    rfl
  | rdRamF2 a =>
    show execRdRamF2 a (s.setRam m) = mapNext _ (execRdRamF2 a s)
    rw [execRdRamF2_of_gate_closed hg, execRdRamF2_of_gate_closed hgm]
    rfl
  | wrF2Ram a v =>
    show execWrF2Ram a v (s.setRam m) = mapNext _ (execWrF2Ram a v s)
    rw [execWrF2Ram_of_gate_closed hg, execWrF2Ram_of_gate_closed hgm]
    rfl
  | wrF1Sec a v => exact execWrF1Sec_setRam s m a v
  | _ => rfl

/-- Behind a closed gate a step commutes with replacing the RAM contents. -/
theorem step_setRam_of_gate_closed {s : State} (hg : ramGate s.config s.regs = false) (m : Memory) :
    step (s.setRam m) = mapNext (State.setRam m) (step s) := by
  cases hm : s.master with
  | nil =>
    rw [step_of_no_transaction hm, step_of_no_transaction (s := s.setRam m) hm]
    rfl
  | cons tx txs =>
    rw [step_of_transaction hm, step_of_transaction (s := s.setRam m) hm, State.setRam_config]
    split
    · exact exec_setRam_of_gate_closed (s := s.setMaster txs) hg m _
    · rfl

/-! ## The statements -/

/-- Settles O14, by the selector of each family as a number. -/
theorem upperSelectorTable : Obligations.UpperSelectorTable := by
  intro c r
  refine ⟨?_, fun hf hb hmode => ?_, fun hf hb hmode => ?_, fun hf hb => toNat_romxSel_family1_atWrite hf hb r,
    fun hf => toNat_romxSel_family2 hf r, fun hf => toNat_romxSel_family3 hf r⟩
  · rintro (hf | hf | hf | hf) <;> simp only [romxSel, hf]
  · simp [toNat_romxSel_family1_atAccess hf hb, hmode]
  · simp [toNat_romxSel_family1_atAccess hf hb, hmode]

/-- Settles O15, by the RAM selector of each family as a number. -/
theorem ramBankTable : Obligations.RamBankTable := by
  intro c r
  refine ⟨fun hf => ramIdx_of_ramSel_zero ?_, fun hf hb hmode => ?_, fun hf hb hmode => ?_, fun hf hb => ?_, ?_⟩
  · rcases hf with hf | hf | hf | hf <;> simp only [ramSel, hf]
  · simp [ramIdx, toNat_ramSel_family1_atAccess hf hb, hmode]
  · simp [ramIdx, toNat_ramSel_family1_atAccess hf hb, hmode]
  · rw [ramIdx, toNat_ramSel_family1_atWrite hf hb]
  · rintro (hf | hf) <;> simp only [ramIdx, ramSel, hf]

/-- Settles O16: in the RAM window the offset is the distance from the window's start, and the family chooses the target. -/
theorem ramTargetTable : Obligations.RamTargetTable := by
  intro c r a ha
  refine ⟨?_, fun hf hcell => ?_, fun hf hcell => ?_, fun hf hsel => ?_, fun hf hlo hhi => ?_, fun hf hsel => ?_⟩
  · rw [← ramOffset_of_ramWindow ha]
    rintro (hf | hf | hf | hf) <;> simp only [ramTarget, hf]
  · rw [ramTarget_family2 hf, if_pos hcell, cellOffset_of_cellRegion ha hcell]
  · rw [ramTarget_family2 hf, if_neg (by omega)]
  · rw [ramTarget_family3 hf, if_pos hsel, ramOffset_of_ramWindow ha]
  · rw [ramTarget_family3 hf, if_neg (by omega), if_pos hhi]
  · rw [ramTarget_family3 hf, if_neg (by omega), if_neg (by omega)]

/-- Settles O40: the write stores at the cell of the target, and neither the gate nor the target depends on RAM, so the
read reaches the same cell. -/
theorem ramWriteReadsBack : Obligations.RamWriteReadsBack := by
  intro s a v b o hi hl hf2 ha hg ht
  obtain ⟨-, hwf, -⟩ := hi
  have hwrite := step_write_of_ramTarget (s := { s with master := [wr a v, rd a] }) hl hf2 ha hg ht rfl
  have hread := step_read_of_ramTarget (s := { s with
    ram := s.ram.write (b * ramBankSize + o) v, master := [rd a], last := some ⟨.ok, none, .ram b o (some v)⟩ })
    hl hf2 ha hg ht rfl
  refine ⟨_, (issueAll_cons_of_next hwrite rfl).trans (issueAll_cons_of_next hread rfl), ?_, rfl, rfl, fun k hk => ?_⟩
  · simp only [ramRead, Memory.read_write hwf, if_true]
  · exact (Memory.read_write hwf _ v k).trans (if_neg hk)

/-- Settles O47: behind a closed gate a step commutes with replacing the RAM contents, by themselves in particular. -/
theorem closedGateIsolatesRam : Obligations.ClosedGateIsolatesRam := by
  intro s t m hg h
  have commutes (n : Memory) : step (s.setRam n) = .next (t.setRam n) := by
    rw [step_setRam_of_gate_closed hg, h]
    rfl
  have same : t = t.setRam s.ram := Host.Outcome.next.inj (h.symm.trans (commutes s.ram))
  refine ⟨?_, commutes m⟩
  rw [same, State.setRam_ram]

/-- Settles O7, by the windows as ranges and the one error of the two invalid ones. -/
theorem windowOfAddress : Obligations.WindowOfAddress := by
  refine ⟨fun a => ⟨window_eq_lower_iff a, window_eq_upper_iff a, window_eq_invalid8_iff a, window_eq_ramWin_iff a,
    window_eq_invalidC_iff a⟩, fun s tx txs hl hm hw => ?_⟩
  obtain ⟨f, hf⟩ := family_of_legal hl
  rw [step_of_family hf (buildable_of_legal hl) hm, exec_decode_of_invalid_window hw]
  exact ⟨_, _, rfl, rfl, rfl⟩

/-- Settles O12: the offset of an address of the lower window is the address, and bank 0 begins the image. -/
theorem lowerWindowReadsBankZero : Obligations.LowerWindowReadsBankZero := by
  intro s a ha
  show execRdRom0 a s = _
  simp only [execRdRom0, romRead, bank0, romOffset_of_le ha, Nat.zero_mul, Nat.zero_add, endRead_eq]

end Sys2Proof.Machine
end

section
/-! PROOFS. Encoding (30_encoding.md): decoder and encoder undo each other, the rows of the operation table, what a
transaction answers and which ports it drives, and the composite sequences. -/

namespace Sys2Proof.Machine

/-! ## The decoder by address ranges (R54)

Test by test, the bits of R54 and the end of the range choose alike among the addresses the tests before left. -/

theorem decodeF1_eq (a : Addr) (v : Byte) : decodeF1 a v =
    if a.toNat ≤ 0x1FFF then .wrF1RamEn a v else if a.toNat ≤ 0x3FFF then .wrF1BankLo a v
    else if a.toNat ≤ 0x5FFF then .wrF1Sec a v else .wrF1Mode a v := by
  simp only [decodeF1, top3_eq_iff, BitVec.reduceToNat]
  refine ite_congr (propext (by omega)) (fun _ => rfl) fun h₀ => ?_
  refine ite_congr (propext (by omega)) (fun _ => rfl) fun h₁ => ?_
  exact ite_congr (propext (by omega)) (fun _ => rfl) fun _ => rfl

theorem decodeF2_eq (a : Addr) (v : Byte) : decodeF2 a v =
    if a.toNat ≤ 0x1FFF then if a.getLsbD 8 then .wrF2NoneA a v else .wrF2RamEn a v
    else if a.toNat ≤ 0x3FFF then if a.getLsbD 8 then .wrF2Bank a v else .wrF2NoneB a v
    else .wrF2NoneC a v := by
  simp only [decodeF2, top3_eq_iff, BitVec.reduceToNat]
  refine ite_congr (propext (by omega)) (fun _ => rfl) fun h₀ => ?_
  exact ite_congr (propext (by omega)) (fun _ => rfl) fun _ => rfl

theorem decodeF3_eq (a : Addr) (v : Byte) : decodeF3 a v =
    if a.toNat ≤ 0x1FFF then .wrF3RamEn a v else if a.toNat ≤ 0x3FFF then .wrF3Bank a v
    else if a.toNat ≤ 0x5FFF then .wrF3RamRtc a v else .wrF3Latch a v := by
  simp only [decodeF3, top3_eq_iff, BitVec.reduceToNat]
  refine ite_congr (propext (by omega)) (fun _ => rfl) fun h₀ => ?_
  refine ite_congr (propext (by omega)) (fun _ => rfl) fun h₁ => ?_
  exact ite_congr (propext (by omega)) (fun _ => rfl) fun _ => rfl

theorem decodeF5_eq (a : Addr) (v : Byte) : decodeF5 a v =
    if a.toNat ≤ 0x1FFF then .wrF5RamEn a v else if a.toNat ≤ 0x2FFF then .wrF5BankLo a v
    else if a.toNat ≤ 0x3FFF then .wrF5BankHi a v
    else if a.toNat ≤ 0x5FFF then .wrF5RamB a v else .wrF5None a v := by
  simp only [decodeF5, top3_eq_iff, top4_eq_iff, BitVec.reduceToNat]
  refine ite_congr (propext (by omega)) (fun _ => rfl) fun h₀ => ?_
  refine ite_congr (propext (by omega)) (fun _ => rfl) fun h₁ => ?_
  refine ite_congr (propext (by omega)) (fun _ => rfl) fun h₂ => ?_
  exact ite_congr (propext (by omega)) (fun _ => rfl) fun _ => rfl

theorem decode_write_of_programWindow {a : Addr} (h : inProgramWindow a) (f : Family) (v : Byte) :
    decode (some f) .write a v = decodeRegWrite f a v := by
  rcases decode_write_cases f a v with ⟨-, hd⟩ | ⟨hlo, -⟩ | ⟨hlo, -⟩ | ⟨hlo, -⟩
  · exact hd
  all_goals
    unfold inProgramWindow at h
    omega

theorem decode_of_lower {a : Addr} (h : a.toNat ≤ 0x3FFF) (f : Family) (v : Byte) :
    decode (some f) .read a v = .rdRom0 a := by
  simp only [decode, (window_eq_lower_iff a).2 h]

theorem decode_of_upper {a : Addr} (h : 0x4000 ≤ a.toNat ∧ a.toNat ≤ 0x7FFF) (f : Family) (v : Byte) :
    decode (some f) .read a v = .rdRomX a := by
  simp only [decode, (window_eq_upper_iff a).2 h]

theorem decode_of_invalid8 {a : Addr} (h : 0x8000 ≤ a.toNat ∧ a.toNat ≤ 0x9FFF) (f : Family) (v : Byte) :
    decode (some f) .read a v = .rdInv8 a ∧ decode (some f) .write a v = .wrInv8 a v := by
  simp only [decode, (window_eq_invalid8_iff a).2 h, and_self]

theorem decode_of_invalidC {a : Addr} (h : 0xC000 ≤ a.toNat) (f : Family) (v : Byte) :
    decode (some f) .read a v = .rdInvC a ∧ decode (some f) .write a v = .wrInvC a v := by
  simp only [decode, (window_eq_invalidC_iff a).2 h, and_self]

/-! ## The operation of a transaction (R51, R54) -/

/-- `i` is an operation of the table under the strap, and stands for the transaction. -/
def IsOperationOf (strap : Option Family) (tx : Transaction) (i : Instr) : Prop :=
  WellFormed strap i = true ∧ i.transaction = tx

theorem wellFormed_iff (strap : Option Family) (i : Instr) :
    WellFormed strap i = true ↔ i.familyOk strap = true ∧ i.addrOk = true ∧ i.dataOk = true := by
  simp [WellFormed, and_assoc]

@[simp] theorem within_iff (lo hi : Nat) (a : Addr) : within lo hi a = true ↔ lo ≤ a.toNat ∧ a.toNat ≤ hi :=
  decide_eq_true_iff

theorem decodeRamRead_isOperationOf {a : Addr} (h : inRamWindow a) (f : Family) :
    IsOperationOf (some f) (rd a) (decodeRamRead f a) := by
  cases f <;> exact ⟨(wellFormed_iff _ _).2 ⟨rfl, (within_iff _ _ a).2 h, rfl⟩, rfl⟩

theorem decodeRamWrite_isOperationOf {a : Addr} (h : inRamWindow a) (f : Family) (v : Byte) :
    IsOperationOf (some f) (wr a v) (decodeRamWrite f a v) := by
  cases f <;> exact ⟨(wellFormed_iff _ _).2 ⟨rfl, (within_iff _ _ a).2 h, rfl⟩, rfl⟩

/-- Each range of a family's register writes is the address range of the operation it decodes to. -/
theorem decodeRegWrite_isOperationOf {a : Addr} (h : inProgramWindow a) (f : Family) (v : Byte) :
    IsOperationOf (some f) (wr a v) (decodeRegWrite f a v) := by
  unfold inProgramWindow at h
  cases f with
  | noMapper | family6 | family7 =>
    exact ⟨(wellFormed_iff _ _).2 ⟨rfl, (within_iff _ _ a).2 ⟨Nat.zero_le _, h⟩, rfl⟩, rfl⟩
  | family1 | family3 | family5 =>
    simp only [decodeRegWrite, decodeF1_eq, decodeF3_eq, decodeF5_eq]
    split_ifs <;> refine ⟨(wellFormed_iff _ _).2 ⟨rfl, (within_iff _ _ a).2 ?_, rfl⟩, rfl⟩ <;> omega
  | family2 =>
    rw [decodeRegWrite, decodeF2_eq]
    split_ifs <;> refine ⟨(wellFormed_iff _ _).2 ⟨rfl, ?_, rfl⟩, rfl⟩ <;> simp_all [Instr.addrOk] <;> omega

theorem decode_read_isOperationOf (f : Family) (a : Addr) (v : Byte) :
    IsOperationOf (some f) (rd a) (decode (some f) .read a v) := by
  rcases decode_read_cases f a v with ⟨h, hd⟩ | ⟨hlo, hhi, hd⟩ | ⟨hlo, hhi, hd⟩ | ⟨hlo, hhi, hd⟩ | ⟨h, hd⟩ <;> rw [hd]
  · exact ⟨(wellFormed_iff _ _).2 ⟨rfl, (within_iff _ _ a).2 ⟨Nat.zero_le _, h⟩, rfl⟩, rfl⟩
  · exact ⟨(wellFormed_iff _ _).2 ⟨rfl, (within_iff _ _ a).2 ⟨hlo, hhi⟩, rfl⟩, rfl⟩
  · exact ⟨(wellFormed_iff _ _).2 ⟨rfl, (within_iff _ _ a).2 ⟨hlo, hhi⟩, rfl⟩, rfl⟩
  · exact decodeRamRead_isOperationOf ⟨hlo, hhi⟩ f
  · exact ⟨(wellFormed_iff _ _).2 ⟨rfl, (within_iff _ _ a).2 ⟨h, Nat.le_of_lt_succ a.isLt⟩, rfl⟩, rfl⟩

theorem decode_write_isOperationOf (f : Family) (a : Addr) (v : Byte) :
    IsOperationOf (some f) (wr a v) (decode (some f) .write a v) := by
  rcases decode_write_cases f a v with ⟨h, hd⟩ | ⟨hlo, hhi, hd⟩ | ⟨hlo, hhi, hd⟩ | ⟨h, hd⟩ <;> rw [hd]
  · exact decodeRegWrite_isOperationOf h f v
  · exact ⟨(wellFormed_iff _ _).2 ⟨rfl, (within_iff _ _ a).2 ⟨hlo, hhi⟩, rfl⟩, rfl⟩
  · exact decodeRamWrite_isOperationOf ⟨hlo, hhi⟩ f v
  · exact ⟨(wellFormed_iff _ _).2 ⟨rfl, (within_iff _ _ a).2 ⟨h, Nat.le_of_lt_succ a.isLt⟩, rfl⟩, rfl⟩

theorem decode_none_isOperationOf {d : Dir} {v : Byte} (hv : d = .read → v = 0#8) (a : Addr) :
    IsOperationOf none ⟨d, a, v⟩ (decode none d a v) := by
  cases d with
  | read =>
    obtain rfl := hv rfl
    exact ⟨rfl, rfl⟩
  | write => exact ⟨rfl, rfl⟩

/-- A transaction decodes to its operation, if the value of a read is 0 (R53). -/
theorem decodeTransaction_isOperationOf (strap : Option Family) {tx : Transaction}
    (hv : tx.dir = .read → tx.data = 0#8) :
    IsOperationOf strap tx (decodeTransaction strap tx) := by
  obtain ⟨d, a, v⟩ := tx
  cases strap with
  | none => exact decode_none_isOperationOf hv a
  | some f =>
    cases d with
    | read =>
      obtain rfl : v = 0#8 := hv rfl
      exact decode_read_isOperationOf f a _
    | write => exact decode_write_isOperationOf f a v

/-- Settles O3: every branch of the decoder gives the operation of its address range. -/
theorem decodedOperationIsWellFormed : Obligations.DecodedOperationIsWellFormed :=
  fun strap _ hv => decodeTransaction_isOperationOf strap hv

/-- Settles O5, window by window, and by the ranges of each family's register writes. -/
theorem decodeFollowsOperationMap : Obligations.DecodeFollowsOperationMap := by
  intro f a v
  have reg (h : a.toNat ≤ 0x7FFF) (f : Family) := decode_write_of_programWindow h f v
  refine ⟨fun h => decode_of_lower h f v, fun hlo hhi => decode_of_upper ⟨hlo, hhi⟩ f v,
    fun hlo hhi => decode_of_invalid8 ⟨hlo, hhi⟩ f v, fun h => decode_of_invalidC h f v, fun hlo hhi => ?_, fun h => ?_,
    fun h => ?_, fun hlo hhi => ?_, fun hlo hhi => ?_, fun hlo hhi => ?_, fun hlo hhi => ?_⟩
  · simp only [decode_read_of_ramWindow ⟨hlo, hhi⟩, decode_write_of_ramWindow ⟨hlo, hhi⟩, decodeRamRead, decodeRamWrite,
      and_self]
  · simp only [reg h, decodeRegWrite, and_self]
  · simp only [reg (by omega), decodeRegWrite, decodeF1_eq, decodeF2_eq, decodeF3_eq, decodeF5_eq, if_pos h, bit8_eq]
    simp +contextual
  · have h0 : ¬ a.toNat ≤ 0x1FFF := by omega
    simp only [reg (by omega), decodeRegWrite, decodeF1_eq, decodeF2_eq, decodeF3_eq, decodeF5_eq, if_neg h0,
      if_pos hhi, bit8_eq]
    refine ⟨trivial, trivial, fun h => if_pos h, fun h => if_neg (by omega), ?_⟩
    simp +contextual
  · rw [reg hhi, decodeRegWrite, decodeF2_eq, if_neg (by omega), if_neg (by omega)]
  · simp (disch := omega) only [reg, decodeRegWrite, decodeF1_eq, decodeF3_eq, decodeF5_eq, if_pos, if_neg, and_self]
  · simp (disch := omega) only [reg, decodeRegWrite, decodeF1_eq, decodeF3_eq, decodeF5_eq, if_neg, and_self]

/-! ## Encoding and decoding are inverse (R53) -/

/-- An operation that is well formed under a strap is what its transaction decodes to. -/
theorem decodeTransaction_transaction {strap : Option Family} {i : Instr} (h : WellFormed strap i = true) :
    decodeTransaction strap i.transaction = i := by
  obtain ⟨hf, ha, -⟩ := (wellFormed_iff _ _).1 h
  cases i with
  | cfgIllegal d a v =>
    obtain rfl : strap = none := eq_of_beq hf
    rfl
  | rdRom0 a =>
    obtain ⟨f, rfl⟩ := Option.isSome_iff_exists.1 hf
    exact decode_of_lower ((within_iff _ _ a).1 ha).2 f _
  | rdRomX a =>
    obtain ⟨f, rfl⟩ := Option.isSome_iff_exists.1 hf
    exact decode_of_upper ((within_iff _ _ a).1 ha) f _
  | rdInv8 a =>
    obtain ⟨f, rfl⟩ := Option.isSome_iff_exists.1 hf
    exact (decode_of_invalid8 ((within_iff _ _ a).1 ha) f 0#8).1
  | rdInvC a =>
    obtain ⟨f, rfl⟩ := Option.isSome_iff_exists.1 hf
    exact (decode_of_invalidC ((within_iff _ _ a).1 ha).1 f 0#8).1
  | wrInv8 a v =>
    obtain ⟨f, rfl⟩ := Option.isSome_iff_exists.1 hf
    exact (decode_of_invalid8 ((within_iff _ _ a).1 ha) f v).2
  | wrInvC a v =>
    obtain ⟨f, rfl⟩ := Option.isSome_iff_exists.1 hf
    exact (decode_of_invalidC ((within_iff _ _ a).1 ha).1 f v).2
  | rdRamNm a | rdRamF1 a | rdRamF2 a | rdRamF3 a | rdRamF5 a | rdRamF6 a | rdRamF7 a =>
    cases eq_of_beq hf
    exact decode_read_of_ramWindow ((within_iff _ _ a).1 ha) _ _
  | wrNmRam a v | wrF1Ram a v | wrF2Ram a v | wrF3Ram a v | wrF5Ram a v | wrF6Ram a v | wrF7Ram a v =>
    cases eq_of_beq hf
    exact decode_write_of_ramWindow ((within_iff _ _ a).1 ha) _ _
  | wrNmRom a v | wrF6Reg a v | wrF7Reg a v =>
    cases eq_of_beq hf
    exact decode_write_of_programWindow ((within_iff _ _ a).1 ha).2 _ _
  | wrF1RamEn a v | wrF1BankLo a v | wrF1Sec a v | wrF1Mode a v | wrF3RamEn a v | wrF3Bank a v | wrF3RamRtc a v
  | wrF3Latch a v | wrF5RamEn a v | wrF5BankLo a v | wrF5BankHi a v | wrF5RamB a v | wrF5None a v =>
    cases eq_of_beq hf
    obtain ⟨hlo, hhi⟩ := (within_iff _ _ a).1 ha
    refine (decode_write_of_programWindow (Nat.le_trans hhi (by decide)) _ v).trans ?_
    simp (disch := omega) only [decodeRegWrite, decodeF1_eq, decodeF3_eq, decodeF5_eq, if_pos, if_neg]
  | wrF2RamEn a v | wrF2NoneA a v | wrF2NoneB a v | wrF2Bank a v =>
    cases eq_of_beq hf
    simp only [Instr.addrOk, Bool.and_eq_true, within_iff, beq_iff_eq] at ha
    obtain ⟨⟨hlo, hhi⟩, hbit⟩ := ha
    refine (decode_write_of_programWindow (Nat.le_trans hhi (by decide)) _ v).trans ?_
    simp (disch := omega) only [decodeRegWrite, decodeF2_eq, hbit, if_pos, if_neg, if_true, Bool.false_eq_true,
      if_false]
  | wrF2NoneC a v =>
    cases eq_of_beq hf
    obtain ⟨hlo, hhi⟩ := (within_iff _ _ a).1 ha
    refine (decode_write_of_programWindow hhi _ v).trans ?_
    rw [decodeRegWrite, decodeF2_eq, if_neg (by omega), if_neg (by omega)]

/-- A word is the packing of its fields. -/
theorem packWord_wordTransaction (t : BitVec 28) : packWord (wordStrap t) (wordTransaction t) = t := by
  have hrw : (bitOfDir (dirOfBit (t.getLsbD 24))).toNat = t.toNat / 2 ^ 24 % 2 := by
    rw [BitVec.getLsbD, Nat.testBit_eq_decide_div_mod_eq]
    rcases Nat.mod_two_eq_zero_or_one (t.toNat / 2 ^ 24) with h | h <;> rw [h] <;> rfl
  have := t.isLt
  rw [BitVec.toNat_eq, toNat_packWord, wordStrap, wordTransaction, codeOfFamily_familyOfCode, hrw]
  simp only [BitVec.extractLsb'_toNat, Nat.shiftRight_eq_div_pow]
  omega

/-- A 28-bit number reads as the word it is. -/
theorem decodeTableWord_toNat (nbits : Nat) (t : BitVec 28) : decodeTableWord nbits t.toNat = some (decodeWord t) := by
  simp only [decodeTableWord, decodeNumber, if_pos t.isLt, BitVec.ofNat_toNat, BitVec.setWidth_eq]

/-- Settles O1: the fields of the packed word are the strap and the operation's transaction, which decodes to the
operation. -/
theorem decodeOfEncodeIsIdentity : Obligations.DecodeOfEncodeIsIdentity := by
  intro nbits strap i h
  refine ⟨?_, wordStrap_packWord _ _⟩
  rw [decodeTableWord_toNat, decodeWord, encode, wordStrap_packWord, wordTransaction_packWord,
    decodeTransaction_transaction h]

/-- Settles O2: the decoded operation stands for the word's transaction, and the word is the packing of its fields. -/
theorem encodeOfDecodeIsIdentity : Obligations.EncodeOfDecodeIsIdentity := by
  intro t hv
  obtain ⟨-, htx⟩ := decodeTransaction_isOperationOf (wordStrap t) hv
  rw [encode, decodeWord, htx, packWord_wordTransaction]
/-! ## The rows of the operation table (R53, R59) -/

/-- The word of a well-formed operation matches the row it comes from. -/
theorem row_hits_encode {strap : Option Family} {i : Instr} (h : WellFormed strap i = true) :
    i.row.hits (encode strap i) = true := by
  cases i with
  | cfgIllegal d a v => exact Laws.RowOfTable.cfgIllegal d a v _ h
  | rdRom0 a => exact Laws.RowOfTable.rdRom0 a _ h
  | rdRomX a => exact Laws.RowOfTable.rdRomX a _ h
  | rdInv8 a => exact Laws.RowOfTable.rdInv8 a _ h
  | rdInvC a => exact Laws.RowOfTable.rdInvC a _ h
  | wrInv8 a v => exact Laws.RowOfTable.wrInv8 a v _ h
  | wrInvC a v => exact Laws.RowOfTable.wrInvC a v _ h
  | wrNmRom a v => exact Laws.RowOfTable.wrNmRom a v _ h
  | wrNmRam a v => exact Laws.RowOfTable.wrNmRam a v _ h
  | rdRamNm a => exact Laws.RowOfTable.rdRamNm a _ h
  | rdRamF1 a => exact Laws.RowOfTable.rdRamF1 a _ h
  | rdRamF2 a => exact Laws.RowOfTable.rdRamF2 a _ h
  | rdRamF3 a => exact Laws.RowOfTable.rdRamF3 a _ h
  | rdRamF5 a => exact Laws.RowOfTable.rdRamF5 a _ h
  | rdRamF6 a => exact Laws.RowOfTable.rdRamF6 a _ h
  | rdRamF7 a => exact Laws.RowOfTable.rdRamF7 a _ h
  | wrF1RamEn a v => exact Laws.RowOfTable.wrF1RamEn a v _ h
  | wrF1BankLo a v => exact Laws.RowOfTable.wrF1BankLo a v _ h
  | wrF1Sec a v => exact Laws.RowOfTable.wrF1Sec a v _ h
  | wrF1Mode a v => exact Laws.RowOfTable.wrF1Mode a v _ h
  | wrF1Ram a v => exact Laws.RowOfTable.wrF1Ram a v _ h
  | wrF2RamEn a v => exact Laws.RowOfTable.wrF2RamEn a v _ h
  | wrF2NoneA a v => exact Laws.RowOfTable.wrF2NoneA a v _ h
  | wrF2NoneB a v => exact Laws.RowOfTable.wrF2NoneB a v _ h
  | wrF2Bank a v => exact Laws.RowOfTable.wrF2Bank a v _ h
  | wrF2NoneC a v => exact Laws.RowOfTable.wrF2NoneC a v _ h
  | wrF2Ram a v => exact Laws.RowOfTable.wrF2Ram a v _ h
  | wrF3RamEn a v => exact Laws.RowOfTable.wrF3RamEn a v _ h
  | wrF3Bank a v => exact Laws.RowOfTable.wrF3Bank a v _ h
  | wrF3RamRtc a v => exact Laws.RowOfTable.wrF3RamRtc a v _ h
  | wrF3Latch a v => exact Laws.RowOfTable.wrF3Latch a v _ h
  | wrF3Ram a v => exact Laws.RowOfTable.wrF3Ram a v _ h
  | wrF5RamEn a v => exact Laws.RowOfTable.wrF5RamEn a v _ h
  | wrF5BankLo a v => exact Laws.RowOfTable.wrF5BankLo a v _ h
  | wrF5BankHi a v => exact Laws.RowOfTable.wrF5BankHi a v _ h
  | wrF5RamB a v => exact Laws.RowOfTable.wrF5RamB a v _ h
  | wrF5None a v => exact Laws.RowOfTable.wrF5None a v _ h
  | wrF5Ram a v => exact Laws.RowOfTable.wrF5Ram a v _ h
  | wrF6Reg a v => exact Laws.RowOfTable.wrF6Reg a v _ h
  | wrF6Ram a v => exact Laws.RowOfTable.wrF6Ram a v _ h
  | wrF7Reg a v => exact Laws.RowOfTable.wrF7Reg a v _ h
  | wrF7Ram a v => exact Laws.RowOfTable.wrF7Ram a v _ h

theorem row_mem_familyRows {strap : Option Family} {i : Instr} (h : WellFormed strap i = true) (hs : strap ≠ none) :
    i.row ∈ familyRows := by
  cases i with
  | cfgIllegal d a v => exact absurd (eq_of_beq ((wellFormed_iff _ _).1 h).1) hs
  | _ =>
    simp only [Instr.row]
    decide

/-- The rows want different values under the mask they share, so that no word matches both. -/
abbrev RowsDisagree (p q : Row) : Prop := p.want &&& q.mask ≠ q.want &&& p.mask

theorem familyRows_disagree : familyRows.Pairwise RowsDisagree := by decide

theorem RowsDisagree.not_hits {p q : Row} (h : RowsDisagree p q) {t : BitVec 28} (hp : p.hits t = true) :
    ¬ q.hits t = true := by
  intro hq
  refine h ?_
  rw [← eq_of_beq hp, ← eq_of_beq hq, BitVec.and_assoc, BitVec.and_assoc, BitVec.and_comm p.mask]

/-- Among rows that disagree a row that matches is the only one. -/
theorem filter_hits_eq_singleton {rows : List Row} (hd : rows.Pairwise RowsDisagree) {r : Row} (hr : r ∈ rows)
    {t : BitVec 28} (ht : r.hits t = true) : rows.filter (fun q => q.hits t) = [r] := by
  induction rows with
  | nil => cases hr
  | cons q rows ih =>
    obtain ⟨hq, hd⟩ := List.pairwise_cons.1 hd
    rw [List.filter_cons]
    rcases List.mem_cons.1 hr with rfl | hr
    · rw [if_pos ht, List.filter_eq_nil_iff.2 fun p hp => (hq p hp).not_hits ht]
    · rw [if_neg fun hqt => (hq r hr).not_hits hqt ht, ih hd hr]

/-- No row looks at the data bits. -/
theorem familyRows_mask : ∀ r ∈ familyRows, r.mask = r.mask.extractLsb' 8 20 ++ 0#8 := by decide

theorem hits_packWord_data {r : Row} (hr : r ∈ familyRows) (f : Option Family) (d : Dir) (a : Addr) (v w : Byte) :
    r.hits (packWord f ⟨d, a, v⟩) = r.hits (packWord f ⟨d, a, w⟩) := by
  have h (x : Byte) : packWord f ⟨d, a, x⟩ &&& r.mask =
      ((codeOfFamily f ++ bitOfDir d ++ a : BitVec 20) &&& r.mask.extractLsb' 8 20) ++ 0#8 := by
    rw [familyRows_mask r hr]
    exact BitVec.and_append.trans (by rw [BitVec.and_zero, ← familyRows_mask r hr])
  rw [Row.hits, Row.hits, h, h]

/-- The row of `CFG.ILLEGAL` matches the words of code 4 (R56(e)). -/
theorem hits_cfgIllegal_iff (d : Dir) (a : Addr) (v : Byte) (t : BitVec 28) :
    (Instr.cfgIllegal d a v).row.hits t = true ↔ wordStrap t = none := by
  have code : wordStrap t = none ↔ t.extractLsb' 25 3 = 4#3 := by
    rw [wordStrap]
    generalize t.extractLsb' 25 3 = k
    revert k
    decide
  have := t.isLt
  rw [code, Row.hits, beq_iff_eq, Instr.row, show (0xE000000#28) = BitVec.allOnes 28 <<< 25 by decide, BitVec.toNat_eq,
    BitVec.toNat_eq, Laws.and_top_toNat, BitVec.extractLsb'_toNat, Nat.shiftRight_eq_div_pow]
  simp only [BitVec.reduceToNat]
  omega

/-- A word of a legal family matches the row of the operation it decodes to, one of R54's. -/
theorem decodeTransaction_row_hits (f : Family) (tx : Transaction) :
    (decodeTransaction (some f) tx).row ∈ familyRows ∧
      (decodeTransaction (some f) tx).row.hits (packWord (some f) tx) = true := by
  obtain ⟨d, a, v⟩ := tx
  cases d with
  | read =>
    obtain ⟨hw, htx⟩ := decode_read_isOperationOf f a v
    have hmem := row_mem_familyRows hw (by simp)
    have hhit := row_hits_encode hw
    rw [encode, htx, rd, hits_packWord_data hmem _ _ _ _ v] at hhit
    exact ⟨hmem, hhit⟩
  | write =>
    obtain ⟨hw, htx⟩ := decode_write_isOperationOf f a v
    have hhit := row_hits_encode hw
    rw [encode, htx] at hhit
    exact ⟨row_mem_familyRows hw (by simp), hhit⟩

/-- Settles O4: under a legal family the row of `CFG.ILLEGAL` does not match, the decoded row does, and the 41 rows of
R54 disagree. -/
theorem exactlyOneTableRowMatches : Obligations.ExactlyOneTableRowMatches := by
  refine ⟨fun t hs => ?_, fun t hs => ?_⟩
  · obtain ⟨f, hf⟩ := Option.ne_none_iff_exists'.1 hs
    obtain ⟨hmem, hhit⟩ := decodeTransaction_row_hits f (wordTransaction t)
    rw [← hf] at hmem hhit
    rw [packWord_wordTransaction] at hhit
    have hcfg := mt (hits_cfgIllegal_iff .read 0#16 0#8 t).1 hs
    refine (List.filter_cons_of_neg (p := fun r : Row => r.hits t) hcfg).trans ?_
    exact filter_hits_eq_singleton familyRows_disagree hmem hhit
  · have hdec : decodeWord t =
        .cfgIllegal (wordTransaction t).dir (wordTransaction t).addr (wordTransaction t).data := by
      rw [decodeWord, hs]
      rfl
    exact ⟨hdec, by rw [hdec, hits_cfgIllegal_iff, hs]⟩

/-! ## Every operation answers (R51, R112) -/

/-- The outcome is a next state with a response, with the parameters and the transactions to come of `s`. -/
def AnswersFrom (s : State) (o : Host.Outcome State Fault Refusal) : Prop :=
  ∃ t, o = .next t ∧ t.config = s.config ∧ t.master = s.master ∧ t.last.isSome = true

theorem ramWindowRead_answers (a : Addr) (s : State) : AnswersFrom s (ramWindowRead a s) := by
  rcases ramWindowRead_cases a s with ⟨-, hr⟩ | ⟨-, ⟨b, o, -, hr⟩ | ⟨i, -, hr⟩ | ⟨-, hr⟩⟩ <;> refine ⟨_, hr, ?_⟩
  case inr.inr.inl => exact ⟨clockUsed_config s, clockUsed_master s, rfl⟩
  all_goals exact ⟨rfl, rfl, rfl⟩

theorem ramWindowWrite_answers (a : Addr) (v : Byte) (s : State) : AnswersFrom s (ramWindowWrite a v s) := by
  rcases ramWindowWrite_cases a v s with ⟨-, hr⟩ | ⟨-, ⟨b, o, -, hr⟩ | ⟨i, -, hr⟩ | ⟨-, hr⟩⟩ <;>
    exact ⟨_, hr, rfl, rfl, rfl⟩

theorem exec_answers {i : Instr} (hi : ∀ d a v, i ≠ .cfgIllegal d a v) (s : State) : AnswersFrom s (exec i s) := by
  cases i with
  | cfgIllegal d a v => exact absurd rfl (hi d a v)
  | rdRamNm a | rdRamF1 a | rdRamF3 a | rdRamF5 a | rdRamF6 a => exact ramWindowRead_answers a s
  | wrNmRam a v | wrF1Ram a v | wrF3Ram a v | wrF5Ram a v | wrF6Ram a v => exact ramWindowWrite_answers a v s
  | rdRamF2 a =>
    obtain ⟨r, hr⟩ := execRdRamF2_eq_respond a s
    exact ⟨_, hr, rfl, rfl, rfl⟩
  | wrF2Ram a v =>
    obtain ⟨m, r, hr⟩ := execWrF2Ram_eq_respond a v s
    exact ⟨_, hr, rfl, rfl, rfl⟩
  | wrF1Sec a v =>
    obtain ⟨q, r, hr⟩ := execWrF1Sec_eq_respond a v s
    exact ⟨_, hr, rfl, rfl, rfl⟩
  | _ => exact ⟨_, rfl, rfl, rfl, rfl⟩

/-- Under a legal family no transaction decodes to `CFG.ILLEGAL`, which is well formed under code 4 alone. -/
theorem decodeTransaction_ne_cfgIllegal (f : Family) (tx : Transaction) (d : Dir) (a : Addr) (v : Byte) :
    decodeTransaction (some f) tx ≠ .cfgIllegal d a v := by
  have hw : WellFormed (some f) (decodeTransaction (some f) tx) = true := by
    obtain ⟨d, a, v⟩ := tx
    cases d with
    | read => exact (decode_read_isOperationOf f a v).1
    | write => exact (decode_write_isOperationOf f a v).1
  intro h
  rw [h] at hw
  exact absurd ((wellFormed_iff _ _).1 hw).1 (by simp [Instr.familyOk])

/-- Settles O11: operation by operation, and a legal configuration decodes to none but those that answer. -/
theorem everyOperationAnswers : Obligations.EveryOperationAnswers := by
  refine ⟨fun i s hi => exec_answers hi s, fun s hl => ?_⟩
  cases hm : s.master with
  | nil => exact ⟨s, step_of_no_transaction hm⟩
  | cons tx txs =>
    obtain ⟨f, hf⟩ := family_of_legal hl
    obtain ⟨t, ht, -⟩ := exec_answers (decodeTransaction_ne_cfgIllegal f tx) (s.setMaster txs)
    exact ⟨t, (step_of_family hf (buildable_of_legal hl) hm).trans ht⟩

/-! ## The secondary write of Family1 (R75) -/

/-- The registers a secondary write leaves, by binding and mode. -/
def secWritten (c : Config) (r : Regs) (v : Byte) : Regs :=
  match c.secBinding with
  | .atAccess => { r with sec := low2 v }
  | .atWrite =>
    if r.mode then { r with ramsel := ramselSetLow2 r.ramsel (low2 v) }
    else { r with bank1 := bank1SetBits65 r.bank1 (low2 v) }

theorem execWrF1Sec_eq (a : Addr) (v : Byte) (s : State) :
    execWrF1Sec a v s = endWrite .idle (s.setRegs (secWritten s.config s.regs v)) := by
  cases hb : s.config.secBinding with
  | atAccess => simp only [execWrF1Sec, secWritten, hb]
  | atWrite =>
    simp only [execWrF1Sec, secWritten, hb]
    split <;> rfl

/-- In mode 0 the secondary bits are the upper bits of the program bank, under either binding (R38, R79). -/
theorem toNat_romxSel_secWritten {c : Config} {r : Regs} (hf : c.family = some .family1) (hmode : r.mode = false)
    (v : Byte) : (romxSel c (secWritten c r v)).toNat = v.toNat % 4 * 32 + r.bank1.toNat % 32 := by
  cases hb : c.secBinding with
  | atAccess =>
    simp only [toNat_romxSel_family1_atAccess hf hb, secWritten, hb, hmode, toNat_low2, Bool.false_eq_true, if_false]
    omega
  | atWrite =>
    simp only [toNat_romxSel_family1_atWrite hf hb, secWritten, hb, hmode, toNat_bank1SetBits65, toNat_low2,
      Bool.false_eq_true, if_false]
    omega

/-- In mode 1 they are the RAM bank (R39, R79). -/
theorem toNat_ramSel_secWritten {c : Config} {r : Regs} (hf : c.family = some .family1) (hmode : r.mode = true)
    (v : Byte) : (ramSel c (secWritten c r v)).toNat = v.toNat % 4 := by
  cases hb : c.secBinding with
  | atAccess => simp only [toNat_ramSel_family1_atAccess hf hb, secWritten, hb, hmode, toNat_low2, if_true]
  | atWrite =>
    simp only [toNat_ramSel_family1_atWrite hf hb, secWritten, hb, hmode, toNat_ramselSetLow2, toNat_low2, if_true]
    omega

/-! ## The ports of a response (R52) -/

/-- The clock is reached under Family3 alone, by the selector values 8 to 12 (R40). -/
theorem ramTarget_clock {c : Config} {r : Regs} {a : Addr} {i : BitVec 4} (h : ramTarget c r a = .clock i) :
    c.family = some .family3 ∧ i = r.ramsel ∧ 8 ≤ i.toNat ∧ i.toNat ≤ 12 := by
  unfold ramTarget at h
  split at h
  case h_5 hf =>
    split_ifs at h with h7 h12
    cases h
    exact ⟨hf, rfl, by omega, h12⟩
  case h_4 => split at h <;> cases h
  all_goals cases h

/-- What a response of the transaction `tx`, which took the block from `s` to `t`, addresses (R52). -/
inductive DrivesPort (tx : Transaction) (s t : State) : Response → Prop where
  | idle (e : Result) (q : Option Byte) (ram : t.ram = s.ram) : DrivesPort tx s t ⟨e, q, .idle⟩
  | rom (b o : Nat) (bank : b < s.config.nRomBanks) (off : o < progBankSize) (ram : t.ram = s.ram) :
      DrivesPort tx s t ⟨.ok, some (romRead s.config b o), .rom b o⟩
  | load (b o : Nat) (q : Byte) (ram : t.ram = s.ram) : DrivesPort tx s t ⟨.ok, some q, .ram b o none⟩
  | store (b o : Nat) (d : Byte) (bank : b < s.config.nRamBanks) (off : o < ramBankSize)
      (ram : t.ram = s.ram.write (b * ramBankSize + o) d) : DrivesPort tx s t ⟨.ok, none, .ram b o (some d)⟩
  | clockRead (i : BitVec 4) (q : Byte) (dir : tx.dir = .read) (addr : inRamWindow tx.addr)
      (gate : ramGate s.config s.regs = true) (target : ramTarget s.config s.regs tx.addr = .clock i)
      (ram : t.ram = s.ram) : DrivesPort tx s t ⟨.ok, some q, .clock i none⟩
  | clockWrite (i : BitVec 4) (dir : tx.dir = .write) (addr : inRamWindow tx.addr)
      (gate : ramGate s.config s.regs = true) (target : ramTarget s.config s.regs tx.addr = .clock i)
      (ram : t.ram = s.ram) : DrivesPort tx s t ⟨.ok, none, .clock i (some tx.data)⟩

/-- The next state shows a response to `tx` that drives the ports as R52 says. -/
def ShowsPort (tx : Transaction) (s t : State) : Prop := ∃ r, t.last = some r ∧ DrivesPort tx s t r

theorem romOffset_lt (a : Addr) : romOffset a < progBankSize := by
  rw [romOffset_eq]
  exact Nat.mod_lt _ (by decide)

/-- The target of an access of a buildable block is a bank below the bank count and an offset within the bank. -/
theorem ramTarget_inRange {c : Config} {r : Regs} {a : Addr} {b o : Nat} (hb : buildable c = true)
    (h : ramTarget c r a = .ram b o) : b < c.nRamBanks ∧ o < ramBankSize := by
  obtain ⟨rfl, ho⟩ := ramTarget_ram h
  exact ⟨Nat.mod_lt _ (nRamBanks_pos_of_buildable hb), ho⟩

section

variable {f : Family} {a : Addr} {v : Byte} {s t : State}

theorem ramWindowRead_showsPort (ha : inRamWindow a) (h : ramWindowRead a s = .next t) :
    ShowsPort ⟨.read, a, v⟩ s t := by
  rcases ramWindowRead_cases a s with ⟨-, hr⟩ | ⟨hg, ⟨b, o, -, hr⟩ | ⟨i, ht, hr⟩ | ⟨-, hr⟩⟩ <;> rw [hr] at h <;> cases h
  · exact ⟨_, rfl, .idle _ _ rfl⟩
  · exact ⟨_, rfl, .load _ _ _ rfl⟩
  · exact ⟨_, rfl, .clockRead i _ rfl ha hg ht (clockUsed_ram s)⟩
  · exact ⟨_, rfl, .idle _ _ rfl⟩

theorem execRdRamF2_showsPort (h : execRdRamF2 a s = .next t) : ShowsPort ⟨.read, a, v⟩ s t := by
  unfold execRdRamF2 at h
  split at h
  · split at h <;> cases h
    · exact ⟨_, rfl, .load _ _ _ rfl⟩
    · exact ⟨_, rfl, .idle _ _ rfl⟩
    · exact ⟨_, rfl, .idle _ _ rfl⟩
  · cases h
    exact ⟨_, rfl, .idle _ _ rfl⟩

theorem exec_decodeRamRead_showsPort (ha : inRamWindow a) (h : exec (decodeRamRead f a) s = .next t) :
    ShowsPort ⟨.read, a, v⟩ s t := by
  cases f with
  | noMapper | family1 | family3 | family5 | family6 => exact ramWindowRead_showsPort ha h
  | family2 => exact execRdRamF2_showsPort h
  | family7 =>
    cases h
    exact ⟨_, rfl, .idle _ _ rfl⟩

theorem exec_decode_read_showsPort (hb : buildable s.config = true) (h : exec (decode (some f) .read a v) s = .next t) :
    ShowsPort ⟨.read, a, v⟩ s t := by
  obtain ⟨-, hpos⟩ := nRomBanks_of_buildable hb
  rcases decode_read_cases f a v with ⟨-, hd⟩ | ⟨-, -, hd⟩ | ⟨-, -, hd⟩ | ⟨hlo, hhi, hd⟩ | ⟨-, hd⟩ <;> rw [hd] at h
  · cases h
    exact ⟨_, rfl, .rom _ _ hpos (romOffset_lt a) rfl⟩
  · cases h
    exact ⟨_, rfl, .rom _ _ (Nat.mod_lt _ hpos) (romOffset_lt a) rfl⟩
  · cases h
    exact ⟨_, rfl, .idle _ _ rfl⟩
  · exact exec_decodeRamRead_showsPort ⟨hlo, hhi⟩ h
  · cases h
    exact ⟨_, rfl, .idle _ _ rfl⟩

theorem ramWindowWrite_showsPort (hb : buildable s.config = true) (ha : inRamWindow a)
    (h : ramWindowWrite a v s = .next t) : ShowsPort ⟨.write, a, v⟩ s t := by
  rcases ramWindowWrite_cases a v s with ⟨-, hr⟩ | ⟨hg, ⟨b, o, ht, hr⟩ | ⟨i, ht, hr⟩ | ⟨-, hr⟩⟩ <;> rw [hr] at h <;>
    cases h
  · exact ⟨_, rfl, .idle _ _ rfl⟩
  · obtain ⟨hbank, hoff⟩ := ramTarget_inRange hb ht
    exact ⟨_, rfl, .store _ _ _ hbank hoff rfl⟩
  · exact ⟨_, rfl, .clockWrite i rfl ha hg ht rfl⟩
  · exact ⟨_, rfl, .idle _ _ rfl⟩

theorem execWrF2Ram_showsPort (hb : buildable s.config = true) (h : execWrF2Ram a v s = .next t) :
    ShowsPort ⟨.write, a, v⟩ s t := by
  unfold execWrF2Ram at h
  split at h
  · split at h <;> cases h
    · obtain ⟨hbank, hoff⟩ := ramTarget_inRange hb ‹_›
      exact ⟨_, rfl, .store _ _ _ hbank hoff rfl⟩
    · exact ⟨_, rfl, .idle _ _ rfl⟩
    · exact ⟨_, rfl, .idle _ _ rfl⟩
  · cases h
    exact ⟨_, rfl, .idle _ _ rfl⟩

theorem exec_decodeRamWrite_showsPort (hb : buildable s.config = true) (ha : inRamWindow a)
    (h : exec (decodeRamWrite f a v) s = .next t) : ShowsPort ⟨.write, a, v⟩ s t := by
  cases f with
  | noMapper | family1 | family3 | family5 | family6 => exact ramWindowWrite_showsPort hb ha h
  | family2 => exact execWrF2Ram_showsPort hb h
  | family7 =>
    cases h
    exact ⟨_, rfl, .idle _ _ rfl⟩

/-- A register write addresses nothing (R52). -/
theorem exec_decodeRegWrite_idle (h : exec (decodeRegWrite f a v) s = .next t) :
    ∃ e, t.last = some ⟨e, none, .idle⟩ := by
  cases f with
  | noMapper | family6 | family7 =>
    cases h
    exact ⟨_, rfl⟩
  | family1 =>
    rw [decodeRegWrite, decodeF1] at h
    split_ifs at h
    · cases h
      exact ⟨_, rfl⟩
    · cases h
      exact ⟨_, rfl⟩
    · cases (execWrF1Sec_eq a v s).symm.trans h
      exact ⟨_, rfl⟩
    · cases h
      exact ⟨_, rfl⟩
  | family2 | family3 | family5 =>
    simp only [decodeRegWrite, decodeF2, decodeF3, decodeF5] at h
    split_ifs at h <;> cases h <;> exact ⟨_, rfl⟩

theorem exec_decode_write_showsPort (hb : buildable s.config = true)
    (h : exec (decode (some f) .write a v) s = .next t) : ShowsPort ⟨.write, a, v⟩ s t := by
  rcases decode_write_cases f a v with ⟨-, hd⟩ | ⟨-, -, hd⟩ | ⟨hlo, hhi, hd⟩ | ⟨-, hd⟩ <;> rw [hd] at h
  · obtain ⟨-, -, hram⟩ := exec_decodeRegWrite_loads h
    obtain ⟨e, he⟩ := exec_decodeRegWrite_idle h
    exact ⟨_, he, .idle _ _ hram⟩
  · cases h
    exact ⟨_, rfl, .idle _ _ rfl⟩
  · exact exec_decodeRamWrite_showsPort hb ⟨hlo, hhi⟩ h
  · cases h
    exact ⟨_, rfl, .idle _ _ rfl⟩

end

/-- A step that takes a transaction shows the ports of that transaction. -/
theorem step_showsPort {s t : State} {tx : Transaction} {txs : List Transaction} (hm : s.master = tx :: txs)
    (h : step s = .next t) : ShowsPort tx (s.setMaster txs) t := by
  rcases step_next_cases h with ⟨hnil, -⟩ | ⟨f, tx', txs', -, hb, hm', he⟩
  · rw [hm] at hnil
    cases hnil
  · obtain ⟨rfl, rfl⟩ := List.cons.inj (hm.symm.trans hm')
    obtain ⟨d, a, v⟩ := tx
    cases d with
    | read => exact exec_decode_read_showsPort (s := s.setMaster txs) hb he
    | write => exact exec_decode_write_showsPort (s := s.setMaster txs) hb he

theorem ramGate_family3 {c : Config} (hf : c.family = some .family3) (r : Regs) : ramGate c r = r.ramEn := by
  simp only [ramGate, hf]

/-- Settles O49, port by port. -/
theorem portsDescribeTheAccess : Obligations.PortsDescribeTheAccess := by
  intro s t tx txs r _ hm h hr
  obtain ⟨r', hr', hp⟩ := step_showsPort hm h
  obtain rfl : r' = r := Option.some.inj (hr'.symm.trans hr)
  cases hp with
  | idle e q ram => exact ⟨fun _ => ram, nofun, nofun, nofun⟩
  | rom b o bank off ram =>
    refine ⟨fun _ => ram, nofun, fun b' o' hbo => ?_, nofun⟩
    cases hbo
    exact ⟨bank, off, rfl⟩
  | load b o q ram => exact ⟨fun _ => ram, nofun, nofun, nofun⟩
  | store b o d bank off ram =>
    refine ⟨nofun, fun b' o' d' hbo => ?_, nofun, nofun⟩
    cases hbo
    exact ⟨ram, bank, off⟩
  | clockRead i q dir addr gate target ram =>
    obtain ⟨hf, hsel, hlo, hhi⟩ := ramTarget_clock target
    refine ⟨fun _ => ram, nofun, nofun, fun j hj => ?_⟩
    cases hj
    rw [ramGate_family3 hf] at gate
    exact ⟨hf, gate, hsel, hlo, hhi, addr, by simp [Response.clkWr, dir], by simp [dir]⟩
  | clockWrite i dir addr gate target ram =>
    obtain ⟨hf, hsel, hlo, hhi⟩ := ramTarget_clock target
    refine ⟨fun _ => ram, nofun, nofun, fun j hj => ?_⟩
    cases hj
    rw [ramGate_family3 hf] at gate
    exact ⟨hf, gate, hsel, hlo, hhi, addr, by simp [Response.clkWr, dir], fun _ => rfl⟩

/-! ## The composite sequences (R58) -/

/-- Under the family `f` a write of `v` at `a` is a register write that takes the registers from `r` to `q`, in every
state with the parameters `c`. -/
def WritesRegs (f : Family) (c : Config) (a : Addr) (v : Byte) (r q : Regs) : Prop :=
  ∀ u : State, u.config = c → u.regs = r → exec (decode (some f) .write a v) u = endWrite .idle (u.setRegs q)

section

variable {s : State} {f : Family} {a b : Addr} {v w : Byte} {p q : Regs} (hf : s.config.family = some f)
  (hl : legal s.config = true)

include hf hl

/-- A register write at the head of a sequence loads its register; then the rest is issued. -/
theorem issueAll_wr_cons (hv : WritesRegs f s.config a v s.regs q) (txs : List Transaction) :
    issueAll (wr a v :: txs) s = issueAll txs ((s.setRegs q).respond wroteNothing) :=
  issueAll_cons_of_next (t := ((s.setMaster txs).setRegs q).respond wroteNothing)
    ((step_of_family (s := { s with master := wr a v :: txs }) hf (buildable_of_legal hl) rfl).trans (hv _ rfl rfl)) rfl

/-- A sequence of one register write leaves the parameters and the registers written. -/
theorem issueAll_wr (hv : WritesRegs f s.config a v s.regs q) :
    ∃ t, issueAll [wr a v] s = .next t ∧ t.config = s.config ∧ t.regs = q :=
  ⟨_, issueAll_wr_cons hf hl hv [], rfl, rfl⟩

/-- So does a sequence of two, the second from the registers the first leaves. -/
theorem issueAll_wr_wr (hv : WritesRegs f s.config a v s.regs p) (hw : WritesRegs f s.config b w p q) :
    ∃ t, issueAll [wr a v, wr b w] s = .next t ∧ t.config = s.config ∧ t.regs = q :=
  ⟨_, (issueAll_wr_cons hf hl hv _).trans
    (issueAll_wr_cons (s := (s.setRegs p).respond wroteNothing) hf hl hw []), rfl, rfl⟩

end

/-! ### The register writes of the sequences, at the addresses of R58 -/

section

variable (c : Config) (r : Regs) (v : Byte)

theorem writesRegs_ramEn {f : Family} (hfs : f = .family1 ∨ f = .family2 ∨ f = .family3 ∨ f = .family5) :
    WritesRegs f c 0x0000#16 v r { r with ramEn := enableValue v } := by
  rintro u rfl rfl
  rcases hfs with rfl | rfl | rfl | rfl <;> rfl

theorem writesRegs_f1BankLo :
    WritesRegs .family1 c 0x2000#16 v r { r with bank1 := bank1SetLow5 r.bank1 (remapZero (low5 v)) } := by
  rintro u rfl rfl
  rfl

theorem writesRegs_f2Bank :
    WritesRegs .family2 c 0x2100#16 v r { r with bank1 := bank1SetLow4 r.bank1 (remapZero (low4 v)) } := by
  rintro u rfl rfl
  rfl

theorem writesRegs_f3Bank :
    WritesRegs .family3 c 0x2000#16 v r { r with bank1 := bank1SetLow7 r.bank1 (remapZero (low7 v)) } := by
  rintro u rfl rfl
  rfl

theorem writesRegs_f5BankLo : WritesRegs .family5 c 0x2000#16 v r { r with bank1 := bank1SetLow8 r.bank1 v } := by
  rintro u rfl rfl
  rfl

theorem writesRegs_f5BankHi :
    WritesRegs .family5 c 0x3000#16 v r { r with bank1 := bank1SetBit8 r.bank1 (low1 v) } := by
  rintro u rfl rfl
  rfl

theorem writesRegs_ramsel {f : Family} (hfs : f = .family3 ∨ f = .family5) :
    WritesRegs f c 0x4000#16 v r { r with ramsel := low4 v } := by
  rintro u rfl rfl
  rcases hfs with rfl | rfl <;> rfl

theorem writesRegs_f1Sec : WritesRegs .family1 c 0x4000#16 v r (secWritten c r v) := by
  rintro u rfl rfl
  exact execWrF1Sec_eq 0x4000#16 v u

end

/-! ### The fields of the written bytes -/

theorem remapZero_of_ne_zero {n : Nat} {x : BitVec n} (h : x.toNat ≠ 0) : remapZero x = x := by
  rw [remapZero, if_neg]
  rintro rfl
  exact h BitVec.toNat_zero

theorem bank1SetBit8_setLow8 (b n : BitVec 9) :
    bank1SetBit8 (bank1SetLow8 b (n.extractLsb' 0 8)) (low1 ((n.extractLsb' 8 1).setWidth 8)) = n := by
  have := n.isLt
  rw [BitVec.toNat_eq, toNat_bank1SetBit8, toNat_bank1SetLow8, toNat_low1, BitVec.toNat_setWidth_of_le (by decide),
    BitVec.extractLsb'_toNat, BitVec.extractLsb'_toNat, Nat.shiftRight_eq_div_pow, Nat.shiftRight_eq_div_pow]
  omega

/-- The low field of a byte is the number it was made of. -/
theorem extractLsb'_setWidth_eight {k : Nat} (hk : k ≤ 8) (n : BitVec k) : (n.setWidth 8).extractLsb' 0 k = n := by
  rw [BitVec.toNat_eq, BitVec.extractLsb'_toNat, BitVec.toNat_setWidth_of_le hk, Nat.shiftRight_zero,
    Nat.mod_eq_of_lt n.isLt]

@[simp] theorem low4_setWidth (n : BitVec 4) : low4 (n.setWidth 8) = n := extractLsb'_setWidth_eight (by decide) n

@[simp] theorem low5_setWidth (n : BitVec 5) : low5 (n.setWidth 8) = n := extractLsb'_setWidth_eight (by decide) n

@[simp] theorem low7_setWidth (n : BitVec 7) : low7 (n.setWidth 8) = n := extractLsb'_setWidth_eight (by decide) n

/-- `n[4:0]` of `ROMBANK7 n`, after the remap. -/
theorem toNat_remapZero_lowField (n : BitVec 7) :
    (remapZero (n.extractLsb' 0 5)).toNat = if n.toNat % 32 = 0 then 1 else n.toNat % 32 := by
  rw [toNat_remapZero (by decide), BitVec.extractLsb'_toNat, Nat.shiftRight_zero]

/-- `n[6:5]` of `ROMBANK7 n`, as the secondary write takes it. -/
theorem toNat_highField (n : BitVec 7) : ((n.extractLsb' 5 2).setWidth 8).toNat % 4 = n.toNat / 32 := by
  have := n.isLt
  rw [BitVec.toNat_setWidth_of_le (by decide), BitVec.extractLsb'_toNat, Nat.shiftRight_eq_div_pow]
  omega

/-- Settles O56: each sequence is one register write or two, whose values carry the fields of the number. -/
theorem compositeSequencesLoadRegisters : Obligations.CompositeSequencesLoadRegisters := by
  intro s f hf hl
  have ramEn (v : Byte) (hfs : f = .family1 ∨ f = .family2 ∨ f = .family3 ∨ f = .family5) :
      ∃ t, issueAll [wr 0x0000#16 v] s = .next t ∧ t.regs = { s.regs with ramEn := enableValue v } := by
    obtain ⟨t, ht, -, hr⟩ := issueAll_wr hf hl (writesRegs_ramEn s.config s.regs v hfs)
    exact ⟨t, ht, hr⟩
  refine ⟨fun hfs => ⟨ramEn 0x0A#8 hfs, ramEn 0x00#8 hfs⟩, ?_, ?_, ?_, ?_, ?_, ?_, ?_, ?_⟩
  · rintro rfl n hn
    obtain ⟨t, ht, -, hr⟩ := issueAll_wr hf hl (writesRegs_f1BankLo s.config s.regs (n.setWidth 8))
    refine ⟨t, ht, ?_⟩
    rw [hr, low5_setWidth, remapZero_of_ne_zero hn, toNat_bank1SetLow5]
    omega
  · rintro rfl hmode n
    obtain ⟨t, ht, hc, hr⟩ := issueAll_wr_wr hf hl
      (writesRegs_f1BankLo s.config s.regs ((n.extractLsb' 0 5).setWidth 8))
      (writesRegs_f1Sec s.config _ ((n.extractLsb' 5 2).setWidth 8))
    refine ⟨t, ht, ?_⟩
    have hlt := (remapZero (n.extractLsb' 0 5)).isLt
    rw [hc, hr, toNat_romxSel_secWritten hf, low5_setWidth, toNat_bank1SetLow5, ← toNat_remapZero_lowField,
      toNat_highField]
    · omega
    · exact hmode
  · rintro rfl n hn
    obtain ⟨t, ht, -, hr⟩ := issueAll_wr hf hl (writesRegs_f2Bank s.config s.regs (n.setWidth 8))
    refine ⟨t, ht, ?_⟩
    rw [hr, low4_setWidth, remapZero_of_ne_zero hn, toNat_bank1SetLow4]
    omega
  · rintro rfl n hn
    obtain ⟨t, ht, -, hr⟩ := issueAll_wr hf hl (writesRegs_f3Bank s.config s.regs (n.setWidth 8))
    refine ⟨t, ht, ?_⟩
    rw [hr, low7_setWidth, remapZero_of_ne_zero hn, toNat_bank1SetLow7]
    omega
  · rintro rfl n
    obtain ⟨t, ht, -, hr⟩ := issueAll_wr_wr hf hl (writesRegs_f5BankLo s.config s.regs (n.extractLsb' 0 8))
      (writesRegs_f5BankHi s.config _ ((n.extractLsb' 8 1).setWidth 8))
    exact ⟨t, ht, by rw [hr, bank1SetBit8_setLow8]⟩
  · rintro rfl hmode n
    obtain ⟨t, ht, hc, hr⟩ := issueAll_wr hf hl (writesRegs_f1Sec s.config s.regs (n.setWidth 8))
    refine ⟨t, ht, ?_⟩
    rw [hc, hr, toNat_ramSel_secWritten hf hmode, BitVec.toNat_setWidth_of_le (by decide), Nat.mod_eq_of_lt n.isLt]
  · rintro rfl n
    obtain ⟨t, ht, -, hr⟩ := issueAll_wr hf hl (writesRegs_ramsel s.config s.regs (n.setWidth 8) (.inl rfl))
    refine ⟨t, ht, ?_⟩
    rw [hr, toNat_low4, BitVec.toNat_setWidth_of_le (by decide)]
    omega
  · rintro rfl n
    obtain ⟨t, ht, -, hr⟩ := issueAll_wr hf hl (writesRegs_ramsel s.config s.regs (n.setWidth 8) (.inr rfl))
    exact ⟨t, ht, by rw [hr, low4_setWidth]⟩

end Sys2Proof.Machine
end

section
/-! PROOFS. The read path (40_read_path.md): one transaction issued, reads that leave the block as it is and answer alike in
every state of the same block, the program windows and the two invalid ranges. -/

namespace Sys2Proof.Machine

/-! ## One transaction issued -/

theorem runSteps_one (s : State) : runSteps 1 s = step s := by
  cases h : step s with
  | next t => exact runSteps_succ_of_next h
  | fault r => cases r
  | refused r => exact runSteps_succ_of_refused h

section

variable {s : State} {f : Family} (hf : s.config.family = some f) (hl : legal s.config = true)

include hf hl

/-- Issuing one transaction carries out the operation it decodes to. -/
theorem issueAll_singleton (tx : Transaction) :
    issueAll [tx] s = exec (decode (some f) tx.dir tx.addr tx.data) (s.setMaster []) :=
  (runSteps_one _).trans (step_of_family (s := { s with master := [tx] }) hf (buildable_of_legal hl) rfl)

theorem responseTo_of_exec {tx : Transaction} {u : State}
    (h : exec (decode (some f) tx.dir tx.addr tx.data) (s.setMaster []) = .next u) : responseTo tx s = u.last := by
  simp only [responseTo, issueAll_singleton hf hl, h]

end

/-! ## Reads answer from the block alone (R65) -/

/-- From `s` the operation reads the clock, or it answers with one response from `s` and from `t` and changes nothing
else of either. -/
def AnswersAlike (o : State → Host.Outcome State Fault Refusal) (s t : State) : Prop :=
  (∃ u r, o s = .next u ∧ u.last = some r ∧ r.clkRd = true) ∨
  ∃ r, o s = .next (s.respond r) ∧ o t = .next (t.respond r)

section

variable {s t : State} (h : sameBlock s t)

include h

theorem ramRead_of_sameBlock (b o : Nat) : ramRead t b o = ramRead s b o := by
  obtain ⟨-, -, hm⟩ := h
  rw [ramRead, hm, ramRead]

theorem ramWindowRead_answersAlike (a : Addr) : AnswersAlike (ramWindowRead a) s t := by
  have hm := ramRead_of_sameBlock h
  obtain ⟨hc, hr, -⟩ := h
  rcases ramWindowRead_cases a s with ⟨hg, hs⟩ | ⟨hg, ⟨b, o, ht, hs⟩ | ⟨i, -, hs⟩ | ⟨ht, hs⟩⟩
  · exact .inr ⟨_, hs, by simp only [ramWindowRead, hc, hr, hg]; rfl⟩
  · exact .inr ⟨_, hs, by simp only [ramWindowRead, hc, hr, hg, ht, hm]; rfl⟩
  · exact .inl ⟨_, _, hs, rfl, rfl⟩
  · exact .inr ⟨_, hs, by simp only [ramWindowRead, hc, hr, hg, ht]; rfl⟩

/-- The Family2 read (R86) depends on parameters, registers and RAM alone. -/
theorem execRdRamF2_answersAlike (a : Addr) : AnswersAlike (execRdRamF2 a) s t := by
  have hm := ramRead_of_sameBlock h
  obtain ⟨hc, hr, -⟩ := h
  right
  simp only [execRdRamF2, hc, hr, hm]
  split
  · split <;> exact ⟨_, rfl, rfl⟩
  · exact ⟨_, rfl, rfl⟩

theorem exec_decodeRamRead_answersAlike (f : Family) (a : Addr) : AnswersAlike (exec (decodeRamRead f a)) s t := by
  cases f with
  | noMapper | family1 | family3 | family5 | family6 => exact ramWindowRead_answersAlike h a
  | family2 => exact execRdRamF2_answersAlike h a
  | family7 =>
    obtain ⟨hc, -, -⟩ := h
    exact .inr ⟨_, rfl, by rw [← hc]; rfl⟩

theorem exec_read_answersAlike (f : Family) (a : Addr) (v : Byte) :
    AnswersAlike (exec (decode (some f) .read a v)) s t := by
  have ⟨hc, hr, _⟩ := h
  rcases decode_read_cases f a v with ⟨-, hd⟩ | ⟨-, -, hd⟩ | ⟨-, -, hd⟩ | ⟨-, -, hd⟩ | ⟨-, hd⟩ <;> rw [hd]
  · exact .inr ⟨_, rfl, by rw [← hc]; rfl⟩
  · exact .inr ⟨_, rfl, by rw [← hc, ← hr]; rfl⟩
  · exact .inr ⟨_, rfl, rfl⟩
  · exact exec_decodeRamRead_answersAlike h f a
  · exact .inr ⟨_, rfl, rfl⟩

/-- A read that is no clock read has one response in every state of the same block. -/
theorem responseTo_of_sameBlock (hl : legal s.config = true) {tx : Transaction} (hdir : tx.dir = .read)
    (hclock : ∀ r, responseTo tx s = some r → r.clkRd = false) : responseTo tx t = responseTo tx s := by
  obtain ⟨f, hf⟩ := family_of_legal hl
  have ⟨hc, _, _⟩ := h
  have alike : AnswersAlike (exec (decode (some f) tx.dir tx.addr tx.data)) (s.setMaster []) (t.setMaster []) := by
    rw [hdir]
    exact exec_read_answersAlike (s := s.setMaster []) (t := t.setMaster []) h f _ _
  rcases alike with ⟨u, r, hs, hlast, hclk⟩ | ⟨r, hs, ht⟩
  · have hfalse := hclock r ((responseTo_of_exec hf hl hs).trans hlast)
    rw [hclk] at hfalse
    cases hfalse
  · rw [responseTo_of_exec hf hl hs, responseTo_of_exec (hc ▸ hf) (hc ▸ hl) ht]
    rfl

end

/-! ## The program windows (R60, R61) -/

theorem romOffset_of_upper {a : Addr} (hlo : 0x4000 ≤ a.toNat) (hhi : a.toNat ≤ 0x7FFF) :
    romOffset a = a.toNat - 0x4000 := by
  rw [romOffset_eq]
  omega

/-- A read of the lower window is answered from the image alone (R37). -/
theorem responseTo_rd_lower {s : State} {a : Addr} (hl : legal s.config = true) (ha : a.toNat ≤ 0x3FFF) :
    responseTo (rd a) s = some ⟨.ok, some (s.config.image.read a.toNat), .rom 0 a.toNat⟩ := by
  obtain ⟨f, hf⟩ := family_of_legal hl
  have hread := lowerWindowReadsBankZero (s.setMaster []) a ha
  rw [← decode_of_lower ha f 0#8] at hread
  exact responseTo_of_exec hf hl (tx := rd a) hread

/-! ## The statements -/

/-- Settles O25: a read leaves the block as it is, and every read but a clock read answers from the block alone. -/
theorem readsChangeNothing : Obligations.ReadsChangeNothing := by
  intro s t tx tx' hl hdir hdir' h
  obtain ⟨f, hf⟩ := family_of_legal hl
  rw [issueAll_singleton hf hl, hdir] at h
  have same : sameBlock s t := exec_read_sameBlock (s := s.setMaster []) h
  exact ⟨same, responseTo_of_sameBlock same hl hdir'⟩

/-- Settles O26: the answer depends on the image alone, and no run changes a parameter. -/
theorem lowerWindowNeverMoves : Obligations.LowerWindowNeverMoves := by
  intro n s t a hl ha h
  have hc : t.config = s.config := parametersNeverChange n s t h
  rw [responseTo_rd_lower hl ha, responseTo_rd_lower (hc ▸ hl) ha, hc]

/-- Settles O13: the offset is the distance from the start of the upper window, and the mux wraps the selector. -/
theorem upperWindowReadsWrappedBank : Obligations.UpperWindowReadsWrappedBank := by
  rintro s a b hlo hhi rfl
  show execRdRomX a s = _
  rw [execRdRomX, romOffset_of_upper hlo hhi]
  rfl

/-- Settles O19: each of the four operations raises the error, and an address of an invalid range decodes to one of them. -/
theorem invalidAccessRaises : Obligations.InvalidAccessRaises := by
  refine ⟨fun s a v => ⟨rfl, rfl, rfl, rfl⟩, fun s tx txs hl hm ha => ?_⟩
  obtain ⟨f, hf⟩ := family_of_legal hl
  have hw := ha.imp (window_eq_invalid8_iff tx.addr).2 (window_eq_invalidC_iff tx.addr).2
  rw [step_of_family hf (buildable_of_legal hl) hm, exec_decode_of_invalid_window hw]
  rfl

end Sys2Proof.Machine
end

section
/-! PROOFS. Writes every family has and NoMapper (41_write_common_nomapper.md): program-window writes where the family has
no register, and RAM bank 0 behind `HAS_RAM`. -/

namespace Sys2Proof.Machine

/-! ## Writes to no register (R56(c)) -/

/-- In every state the operation ends `OK` and leaves all but the response as it is. -/
def DoesNothing (i : Instr) : Prop := ∀ s : State, exec i s = .next { s with last := some wroteNothing }

section

variable (a : Addr) (v : Byte)

theorem wrNmRom_doesNothing : DoesNothing (.wrNmRom a v) := fun _ => rfl

theorem wrF2NoneA_doesNothing : DoesNothing (.wrF2NoneA a v) := fun _ => rfl

theorem wrF2NoneB_doesNothing : DoesNothing (.wrF2NoneB a v) := fun _ => rfl

theorem wrF2NoneC_doesNothing : DoesNothing (.wrF2NoneC a v) := fun _ => rfl

theorem wrF3Latch_doesNothing : DoesNothing (.wrF3Latch a v) := fun _ => rfl

theorem wrF5None_doesNothing : DoesNothing (.wrF5None a v) := fun _ => rfl

end

/-! ## The address ranges without a register (R54) -/

section

variable {a : Addr} (v : Byte)

theorem decodeF2_of_noneA (ha : a.toNat ≤ 0x1FFF) (h8 : a.toNat / 256 % 2 = 1) : decodeF2 a v = .wrF2NoneA a v := by
  rw [decodeF2_eq, if_pos ha, if_pos (by simpa only [bit8_eq, decide_eq_true_iff] using h8)]

theorem decodeF2_of_noneB (hlo : 0x2000 ≤ a.toNat) (hhi : a.toNat ≤ 0x3FFF) (h8 : a.toNat / 256 % 2 = 0) :
    decodeF2 a v = .wrF2NoneB a v := by
  rw [decodeF2_eq, if_neg (by omega), if_pos hhi, if_neg (by rw [bit8_eq, decide_eq_true_iff]; omega)]

theorem decodeF2_of_upper (hlo : 0x4000 ≤ a.toNat) : decodeF2 a v = .wrF2NoneC a v := by
  rw [decodeF2_eq, if_neg (by omega), if_neg (by omega)]

theorem decodeF3_of_latch (hlo : 0x6000 ≤ a.toNat) : decodeF3 a v = .wrF3Latch a v := by
  rw [decodeF3_eq, if_neg (by omega), if_neg (by omega), if_neg (by omega)]

theorem decodeF5_of_none (hlo : 0x6000 ≤ a.toNat) : decodeF5 a v = .wrF5None a v := by
  rw [decodeF5_eq, if_neg (by omega), if_neg (by omega), if_neg (by omega), if_neg (by omega)]

end

/-- A step takes a program-window write and does nothing more, when the write's operation does nothing. -/
theorem step_wr_of_doesNothing {s : State} {f : Family} {a : Addr} {v : Byte} {i : Instr}
    {txs : List Transaction} (hf : s.config.family = some f) (hl : legal s.config = true) (hm : s.master = wr a v :: txs)
    (ha : inProgramWindow a) (hi : decodeRegWrite f a v = i) (hn : DoesNothing i) :
    step s = .next { s with master := txs, last := some wroteNothing } := by
  rw [step_of_family hf (buildable_of_legal hl) hm]
  simp only [wr]
  rw [decode_write_of_programWindow ha, hi, hn]
  rfl

/-! ## A RAM-window access that reaches one cell, given by its linear address (R41, R62, R67) -/

section

variable {s : State} {a : Addr} {b o k₀ : Nat} (hg : ramGate s.config s.regs = true)
  (ht : ramTarget s.config s.regs a = .ram b o) (hk : k₀ = b * 0x2000 + o)

include hg ht hk

theorem ramWindowWrite_storesOneCell (hwf : s.ram.wf) (v : Byte) :
    ∃ m : Memory, (∀ k, m.read k = if k = k₀ then v else s.ram.read k) ∧
      ramWindowWrite a v s = .next { s with ram := m, last := some ⟨.ok, none, .ram b o (some v)⟩ } := by
  subst hk
  exact ⟨_, Memory.read_write hwf _ v, ramWindowWrite_of_ramTarget hg ht v⟩

theorem ramWindowRead_readsOneCell :
    ramWindowRead a s = .next { s with last := some ⟨.ok, some (s.ram.read k₀), .ram b o none⟩ } := by
  subst hk
  exact ramWindowRead_of_ramTarget hg ht

end

/-! ## NoMapper's gate and RAM target (R27, R39, R40) -/

theorem ramGate_noMapper {c : Config} (hf : c.family = some .noMapper) (r : Regs) : ramGate c r = c.hasRam := by
  simp only [ramGate, hf]

theorem ramSel_noMapper {c : Config} (hf : c.family = some .noMapper) (r : Regs) : ramSel c r = 0#4 := by
  simp only [ramSel, hf]

theorem ramTarget_noMapper {c : Config} (hf : c.family = some .noMapper) (r : Regs) {a : Addr} (ha : inRamWindow a) :
    ramTarget c r a = .ram 0 (a.toNat - 0xA000) := by
  simp only [ramTarget, hf, ramIdx_of_ramSel_zero (ramSel_noMapper hf r), ramOffset_of_ramWindow ha]

/-! ## The statements -/

/-- Settles O33: each of the six operations does nothing, and each of the address ranges decodes to one of them. -/
theorem writesToNoRegisterDoNothing : Obligations.WritesToNoRegisterDoNothing := by
  refine ⟨fun s a v => ⟨wrNmRom_doesNothing a v s, wrF2NoneA_doesNothing a v s, wrF2NoneB_doesNothing a v s,
    wrF2NoneC_doesNothing a v s, wrF3Latch_doesNothing a v s, wrF5None_doesNothing a v s⟩,
    fun s a v txs hl hm hrange => ?_⟩
  rcases hrange with ⟨hf, hhi⟩ | ⟨hf, hhi, h8⟩ | ⟨hf, hlo, hhi, h8⟩ | ⟨hf, hlo, hhi⟩ | ⟨hf, hlo, hhi⟩ | ⟨hf, hlo, hhi⟩
  · exact step_wr_of_doesNothing hf hl hm hhi rfl (wrNmRom_doesNothing a v)
  · exact step_wr_of_doesNothing hf hl hm (by omega) (decodeF2_of_noneA v hhi h8) (wrF2NoneA_doesNothing a v)
  · exact step_wr_of_doesNothing hf hl hm (by omega) (decodeF2_of_noneB v hlo hhi h8) (wrF2NoneB_doesNothing a v)
  · exact step_wr_of_doesNothing hf hl hm hhi (decodeF2_of_upper v hlo) (wrF2NoneC_doesNothing a v)
  · exact step_wr_of_doesNothing hf hl hm hhi (decodeF3_of_latch v hlo) (wrF3Latch_doesNothing a v)
  · exact step_wr_of_doesNothing hf hl hm hhi (decodeF5_of_none v hlo) (wrF5None_doesNothing a v)

/-- Settles O34: the gate is `HAS_RAM`, and behind it the target is the cell of bank 0 at the address's offset. -/
theorem noMapperRamAccess : Obligations.NoMapperRamAccess := by
  intro s a v hf ha hwf
  have hgate := ramGate_noMapper hf s.regs
  have ht := ramTarget_noMapper hf s.regs ha
  have hk : a.toNat - 0xA000 = 0 * 0x2000 + (a.toNat - 0xA000) := by omega
  refine ⟨fun hram => ?_, fun hram => ?_⟩
  · have hg := hgate.trans hram
    exact ⟨ramWindowWrite_storesOneCell hg ht hk hwf v, ramWindowRead_readsOneCell hg ht hk⟩
  · have hg := hgate.trans hram
    exact ⟨ramWindowWrite_of_gate_closed hg a v, ramWindowRead_of_gate_closed hg a⟩

end Sys2Proof.Machine
end

section
/-! PROOFS. Family1 (42_family1.md): its register writes and RAM accesses, the RAM gate of Families 1, 2, 3 and 5 closed and
opened again, and the two bindings of the secondary register. -/

namespace Sys2Proof.Machine

/-! ## Register writes (R74 to R76) -/

theorem low1_beq_one (v : Byte) : (low1 v == 1#1) = decide (v.toNat % 2 = 1) := by
  rw [Bool.eq_iff_iff, beq_iff_eq, decide_eq_true_iff, BitVec.toNat_eq, toNat_low1]
  rfl

/-- The remapped bank field of Family1 as a number. -/
theorem toNat_remapZero_low5 (v : Byte) :
    (remapZero (low5 v)).toNat = if v.toNat % 32 = 0 then 1 else v.toNat % 32 := by
  rw [toNat_remapZero (by decide), toNat_low5]

/-- The secondary write loads the registers `secWritten` gives and ends `OK`. -/
theorem exec_wrF1Sec (a : Addr) (v : Byte) (s : State) :
    exec (.wrF1Sec a v) s = .next { s with regs := secWritten s.config s.regs v, last := some wroteNothing } :=
  execWrF1Sec_eq a v s

section

variable {c : Config} (r : Regs) (v : Byte)

theorem secWritten_atAccess (hb : c.secBinding = .atAccess) : secWritten c r v = { r with sec := low2 v } := by
  simp only [secWritten, hb]

theorem secWritten_atWrite_mode0 (hb : c.secBinding = .atWrite) (hmode : r.mode = false) :
    secWritten c r v = { r with bank1 := bank1SetBits65 r.bank1 (low2 v) } := by
  rw [secWritten, hb]
  exact if_neg (ne_true_of_eq_false hmode)

theorem secWritten_atWrite_mode1 (hb : c.secBinding = .atWrite) (hmode : r.mode = true) :
    secWritten c r v = { r with ramsel := ramselSetLow2 r.ramsel (low2 v) } := by
  rw [secWritten, hb]
  exact if_pos hmode

end

/-! ## Family1's RAM target (R39, R40) -/

theorem ramGate_family1 {c : Config} (hf : c.family = some .family1) (r : Regs) : ramGate c r = r.ramEn := by
  simp only [ramGate, hf]

theorem ramTarget_family1 {c : Config} (hf : c.family = some .family1) (r : Regs) (a : Addr) :
    ramTarget c r a = .ram (ramIdx c r) (ramOffset a) := by
  simp only [ramTarget, hf]

/-! ## The gate `ram_en` closed and opened again (R27, R42) -/

/-- The families whose gate is the register `ram_en` and whose registers include it. -/
def HasRamEn (f : Family) : Prop := f = .family1 ∨ f = .family2 ∨ f = .family3 ∨ f = .family5

theorem ramGate_of_hasRamEn {c : Config} {f : Family} (hf : c.family = some f) (hw : HasRamEn f) (r : Regs) :
    ramGate c r = r.ramEn := by
  rcases hw with rfl | rfl | rfl | rfl <;> simp only [ramGate, hf]

theorem exec_decodeRamRead_of_gate_closed {f : Family} (hw : HasRamEn f) {s : State}
    (hg : ramGate s.config s.regs = false) (a : Addr) :
    exec (decodeRamRead f a) s = .next (s.respond ⟨.ok, some s.config.openBus, .idle⟩) := by
  rcases hw with rfl | rfl | rfl | rfl
  case inr.inl => exact execRdRamF2_of_gate_closed hg a
  all_goals exact ramWindowRead_of_gate_closed hg a

theorem exec_decodeRamWrite_of_gate_closed {f : Family} (hw : HasRamEn f) {s : State}
    (hg : ramGate s.config s.regs = false) (a : Addr) (v : Byte) :
    exec (decodeRamWrite f a v) s = .next (s.respond wroteNothing) := by
  rcases hw with rfl | rfl | rfl | rfl
  case inr.inl => exact execWrF2Ram_of_gate_closed hg a v
  all_goals exact ramWindowWrite_of_gate_closed hg a v

/-- The block with `ram_en` loaded, after a write that ends `OK`. -/
def State.wroteRamEn (e : Bool) (s : State) : State := (s.setRegs { s.regs with ramEn := e }).respond wroteNothing

@[simp] theorem State.wroteRamEn_config (e : Bool) (s : State) : (s.wroteRamEn e).config = s.config := rfl

@[simp] theorem State.wroteRamEn_regs (e : Bool) (s : State) :
    (s.wroteRamEn e).regs = { s.regs with ramEn := e } := rfl

/-- Closing an open gate and opening it again gives the registers back. -/
theorem State.wroteRamEn_reopen {s : State} (hen : s.regs.ramEn = true) :
    ((s.wroteRamEn false).respond wroteNothing).wroteRamEn true = s.respond wroteNothing := by
  simp only [State.wroteRamEn, State.setRegs, State.respond, ← hen]

section

variable {s : State} {f : Family} {a : Addr} (hf : s.config.family = some f) (hl : legal s.config = true)

include hf hl

/-- A read of the RAM window, issued alone, carries out the family's operation. -/
theorem issueAll_rd_of_ramWindow (ha : inRamWindow a) :
    issueAll [rd a] s = exec (decodeRamRead f a) (s.setMaster []) := by
  rw [issueAll_singleton hf hl, ← decode_read_of_ramWindow ha f 0#8]
  rfl

variable (hw : HasRamEn f)

include hw

theorem issueAll_ramOff_cons (txs : List Transaction) :
    issueAll (seqRamOff ++ txs) s = issueAll txs (s.wroteRamEn false) :=
  issueAll_wr_cons hf hl (writesRegs_ramEn s.config s.regs 0x00#8 hw) txs

theorem issueAll_ramOn_cons (txs : List Transaction) :
    issueAll (seqRamOn ++ txs) s = issueAll txs (s.wroteRamEn true) :=
  issueAll_wr_cons hf hl (writesRegs_ramEn s.config s.regs 0x0A#8 hw) txs

variable (ha : inRamWindow a)

include ha

/-- Behind a closed gate a RAM-window write at the head of a list is dropped; then the rest is issued. -/
theorem issueAll_droppedWrite_cons (hen : s.regs.ramEn = false) (v : Byte) (txs : List Transaction) :
    issueAll (wr a v :: txs) s = issueAll txs (s.respond wroteNothing) := by
  have hg : ramGate s.config s.regs = false := (ramGate_of_hasRamEn hf hw s.regs).trans hen
  have hexec := exec_decodeRamWrite_of_gate_closed (s := s.setMaster txs) hw hg a v
  rw [← decode_write_of_ramWindow ha] at hexec
  exact issueAll_cons_of_next (t := (s.setMaster txs).respond wroteNothing)
    ((step_of_family (s := { s with master := wr a v :: txs }) hf (buildable_of_legal hl) rfl).trans hexec) rfl

/-- Closing the gate hides the cell from a read, whatever was written behind it. -/
theorem issueAll_closed_readsOpenBus (v : Byte) : ∃ t, issueAll (seqRamOff ++ [wr a v, rd a]) s = .next t ∧
    t.last = some ⟨.ok, some s.config.openBus, .idle⟩ := by
  have hg : ramGate s.config { s.regs with ramEn := false } = false := ramGate_of_hasRamEn hf hw _
  rw [issueAll_ramOff_cons hf hl hw, issueAll_droppedWrite_cons (s := s.wroteRamEn false) hf hl hw ha rfl,
    issueAll_rd_of_ramWindow (s := (s.wroteRamEn false).respond wroteNothing) hf hl ha,
    exec_decodeRamRead_of_gate_closed hw hg]
  exact ⟨_, rfl, rfl⟩

/-- Closing an open gate, writing behind it and opening it again comes to nothing: the read is issued from the block as it
was. -/
theorem issueAll_reopened (hen : s.regs.ramEn = true) (v : Byte) :
    issueAll (seqRamOff ++ [wr a v] ++ seqRamOn ++ [rd a]) s =
      exec (decodeRamRead f a) ((s.respond wroteNothing).setMaster []) := by
  calc issueAll (seqRamOff ++ [wr a v] ++ seqRamOn ++ [rd a]) s
      = issueAll (wr a v :: (seqRamOn ++ [rd a])) (s.wroteRamEn false) := issueAll_ramOff_cons hf hl hw _
    _ = issueAll (seqRamOn ++ [rd a]) ((s.wroteRamEn false).respond wroteNothing) :=
        issueAll_droppedWrite_cons (s := s.wroteRamEn false) hf hl hw ha rfl v _
    _ = issueAll [rd a] (((s.wroteRamEn false).respond wroteNothing).wroteRamEn true) :=
        issueAll_ramOn_cons (s := (s.wroteRamEn false).respond wroteNothing) hf hl hw _
    _ = issueAll [rd a] (s.respond wroteNothing) := by rw [State.wroteRamEn_reopen hen]
    _ = exec (decodeRamRead f a) ((s.respond wroteNothing).setMaster []) :=
        issueAll_rd_of_ramWindow (s := s.respond wroteNothing) hf hl ha

end

/-- The byte of a Family2 cell as a number (R86). -/
theorem toNat_cellByte (c : Config) (x : Byte) : (cellByte c x).toNat = 16 * c.f2HiNibble.toNat + x.toNat % 16 := by
  have h : (cellByte c x).toNat = c.f2HiNibble.toNat * 2 ^ 4 + (low4 x).toNat := toNat_append_eq _ _
  rw [h, toNat_low4]
  omega

/-- The Family2 read of an open gate's cell (R86). -/
theorem execRdRamF2_of_ramTarget {s : State} {a : Addr} {b o : Nat} (hg : ramGate s.config s.regs = true)
    (ht : ramTarget s.config s.regs a = .ram b o) :
    execRdRamF2 a s = .next (s.respond ⟨.ok, some (cellByte s.config (ramRead s b o)), .ram b o none⟩) := by
  simp only [execRdRamF2, hg, ht, if_true]
  rfl

/-! ## The two bindings hold the same selectors (R79) -/

/-- Two configurations of Family1 that differ in the binding alone. -/
structure StrapsMatch (c d : Config) : Prop where
  family   : c.family = some .family1
  atAccess : c.secBinding = .atAccess
  other    : d = { c with secBinding := .atWrite }

/-- The registers `q` under `AT_WRITE` hold in `bank1` and `ramsel` what the mode in force makes of `r` under `AT_ACCESS`. -/
structure RegsMatch (r q : Regs) : Prop where
  ramEn  : q.ramEn = r.ramEn
  mode   : q.mode = r.mode
  low    : r.bank1.toNat < 32
  bank1  : q.bank1.toNat = 32 * (if r.mode then 0 else r.sec.toNat) + r.bank1.toNat
  ramsel : q.ramsel.toNat = if r.mode then r.sec.toNat else 0

/-- The relation of R79 is one of parameters, one of registers, and equality of everything else but the response. -/
theorem bindingsMatch_iff (s t : State) : bindingsMatch s t ↔
    StrapsMatch s.config t.config ∧ RegsMatch s.regs t.regs ∧ t.ram = s.ram ∧ sameInputs s t := by
  constructor
  · rintro ⟨hf, hb, hc, hen, hmode, hlow, -, -, hmod, hdiv, hsel, hram, hin⟩
    exact ⟨⟨hf, hb, hc⟩, ⟨hen, hmode, hlow, by omega, hsel⟩, hram, hin⟩
  · rintro ⟨⟨hf, hb, hc⟩, ⟨hen, hmode, hlow, hbank, hsel⟩, hram, hin⟩
    have hsec := s.regs.sec.isLt
    have hhigh : (if s.regs.mode then 0 else s.regs.sec.toNat) < 4 := by split <;> omega
    have hselLt : (if s.regs.mode then s.regs.sec.toNat else 0) < 4 := by split <;> omega
    exact ⟨hf, hb, hc, hen, hmode, hlow, by omega, by omega, by omega, by omega, hsel, hram, hin⟩

theorem bindingsMatch_setMaster {s t : State} (h : bindingsMatch s t) (txs : List Transaction) :
    bindingsMatch (s.setMaster txs) (t.setMaster txs) := by
  obtain ⟨hc, hr, hram, -, hclk, hdraws⟩ := (bindingsMatch_iff s t).1 h
  exact (bindingsMatch_iff _ _).2 ⟨hc, hr, hram, rfl, hclk, hdraws⟩

/-! ### The mux and the gate -/

section

variable {c d : Config} (hc : StrapsMatch c d)

include hc

theorem StrapsMatch.family_right : d.family = some .family1 := by rw [hc.other, hc.family]

theorem StrapsMatch.atWrite : d.secBinding = .atWrite := by rw [hc.other]

theorem StrapsMatch.romRead_eq (b o : Nat) : romRead d b o = romRead c b o := by
  rw [hc.other]
  rfl

theorem StrapsMatch.openBus_eq : d.openBus = c.openBus := by rw [hc.other]

theorem StrapsMatch.buildable_eq : buildable d = buildable c := by
  rw [hc.other]
  rfl

variable {r q : Regs} (hr : RegsMatch r q)

include hr

theorem RegsMatch.ramGate_eq : ramGate d q = ramGate c r := by
  rw [ramGate_family1 hc.family_right, ramGate_family1 hc.family, hr.ramEn]

theorem RegsMatch.romxIdx_eq : romxIdx d q = romxIdx c r := by
  have sel : (romxSel d q).toNat = (romxSel c r).toNat := by
    rw [toNat_romxSel_family1_atWrite hc.family_right hc.atWrite, toNat_romxSel_family1_atAccess hc.family hc.atAccess,
      hr.bank1]
    have := r.sec.isLt
    have := hr.low
    split <;> omega
  rw [romxIdx, sel, hc.other]
  rfl

theorem RegsMatch.ramIdx_eq : ramIdx d q = ramIdx c r := by
  have sel : (ramSel d q).toNat = (ramSel c r).toNat := by
    rw [toNat_ramSel_family1_atWrite hc.family_right hc.atWrite, toNat_ramSel_family1_atAccess hc.family hc.atAccess,
      hr.ramsel]
    have := r.sec.isLt
    split <;> omega
  rw [ramIdx, sel, hc.other]
  rfl

theorem RegsMatch.ramTarget_eq (a : Addr) : ramTarget d q a = ramTarget c r a := by
  rw [ramTarget_family1 hc.family_right, ramTarget_family1 hc.family, hr.ramIdx_eq hc]

end

/-! ### The register writes -/

section

variable {r q : Regs} (hr : RegsMatch r q) (v : Byte)

include hr

theorem RegsMatch.wrRamEn (e : Bool) : RegsMatch { r with ramEn := e } { q with ramEn := e } :=
  ⟨rfl, hr.mode, hr.low, hr.bank1, hr.ramsel⟩

theorem RegsMatch.wrBankLo : RegsMatch { r with bank1 := bank1SetLow5 r.bank1 (remapZero (low5 v)) }
    { q with bank1 := bank1SetLow5 q.bank1 (remapZero (low5 v)) } := by
  obtain ⟨hen, hmode, hlow, hbank, hsel⟩ := hr
  have := (remapZero (low5 v)).isLt
  refine ⟨hen, hmode, ?_, ?_, hsel⟩ <;> simp only [toNat_bank1SetLow5] <;> omega

/-- The secondary write puts the two bits under `AT_WRITE` where `AT_ACCESS` uses them. -/
theorem RegsMatch.wrSec {c d : Config} (hc : StrapsMatch c d) : RegsMatch (secWritten c r v) (secWritten d q v) := by
  obtain ⟨hen, hmode, hlow, hbank, hsel⟩ := hr
  have hv := (low2 v).isLt
  have hsec := r.sec.isLt
  rw [secWritten_atAccess _ _ hc.atAccess]
  cases hm : r.mode with
  | false =>
    have hm' := hmode.trans hm
    rw [secWritten_atWrite_mode0 _ _ hc.atWrite hm']
    simp only [hm, Bool.false_eq_true, if_false] at hbank hsel
    refine ⟨hen, hm', hlow, ?_, hsel⟩
    simp only [Bool.false_eq_true, if_false, toNat_bank1SetBits65]
    omega
  | true =>
    have hm' := hmode.trans hm
    rw [secWritten_atWrite_mode1 _ _ hc.atWrite hm']
    simp only [hm, if_true] at hbank hsel
    refine ⟨hen, hm', hlow, hbank, ?_⟩
    simp only [if_true, toNat_ramselSetLow2]
    omega

/-- A mode write that keeps the mode, or finds the secondary bits 0, leaves the bits where the mode uses them. -/
theorem RegsMatch.wrMode {m : Bool} (h : r.sec = 0#2 ∨ r.mode = m) :
    RegsMatch { r with mode := m } { q with mode := m } := by
  obtain ⟨hen, hmode, hlow, hbank, hsel⟩ := hr
  rcases h with hsec | rfl
  · exact ⟨hen, rfl, hlow, by simpa [hsec] using hbank, by simpa [hsec] using hsel⟩
  · exact ⟨hen, rfl, hlow, hbank, hsel⟩

end

/-! ### The operations answer alike -/

/-- From `s` and `t` the operation goes on to states that match again, with one response. -/
def MatchAfter (o : State → Host.Outcome State Fault Refusal) (s t : State) : Prop :=
  ∃ s' t', o s = .next s' ∧ o t = .next t' ∧ bindingsMatch s' t' ∧ s'.last = t'.last

section

variable {o : State → Host.Outcome State Fault Refusal} {s t : State} (h : bindingsMatch s t)

include h

theorem matchAfter_of_respond {r : Response} (hs : o s = .next (s.respond r)) (ht : o t = .next (t.respond r)) :
    MatchAfter o s t := ⟨_, _, hs, ht, h, rfl⟩

theorem matchAfter_of_setRegs {r q : Regs} (hm : RegsMatch r q) (hs : o s = endWrite .idle (s.setRegs r))
    (ht : o t = endWrite .idle (t.setRegs q)) : MatchAfter o s t := by
  obtain ⟨hc, -, hrest⟩ := (bindingsMatch_iff s t).1 h
  exact ⟨_, _, hs, ht, (bindingsMatch_iff _ _).2 ⟨hc, hm, hrest⟩, rfl⟩

theorem ramWindowRead_matchAfter (a : Addr) : MatchAfter (ramWindowRead a) s t := by
  obtain ⟨hc, hr, hram, -⟩ := (bindingsMatch_iff s t).1 h
  have hgate := hr.ramGate_eq hc
  cases hg : ramGate s.config s.regs with
  | false =>
    have ht := ramWindowRead_of_gate_closed (hgate.trans hg) a
    rw [hc.openBus_eq] at ht
    exact matchAfter_of_respond h (ramWindowRead_of_gate_closed hg a) ht
  | true =>
    have hs := ramTarget_family1 hc.family s.regs a
    have hcell (b o : Nat) : ramRead t b o = ramRead s b o := by rw [ramRead, hram, ramRead]
    have ht := ramWindowRead_of_ramTarget (hgate.trans hg) ((hr.ramTarget_eq hc a).trans hs)
    rw [hcell] at ht
    exact matchAfter_of_respond h (ramWindowRead_of_ramTarget hg hs) ht

theorem ramWindowWrite_matchAfter (a : Addr) (v : Byte) : MatchAfter (ramWindowWrite a v) s t := by
  obtain ⟨hc, hr, hram, hin⟩ := (bindingsMatch_iff s t).1 h
  have hgate := hr.ramGate_eq hc
  cases hg : ramGate s.config s.regs with
  | false =>
    exact matchAfter_of_respond h (ramWindowWrite_of_gate_closed hg a v)
      (ramWindowWrite_of_gate_closed (hgate.trans hg) a v)
  | true =>
    have hs := ramTarget_family1 hc.family s.regs a
    have ht := ramWindowWrite_of_ramTarget (hgate.trans hg) ((hr.ramTarget_eq hc a).trans hs) v
    rw [hram] at ht
    exact ⟨_, _, ramWindowWrite_of_ramTarget hg hs v, ht, (bindingsMatch_iff _ _).2 ⟨hc, hr, rfl, hin⟩, rfl⟩

theorem exec_read_matchAfter (a : Addr) (v : Byte) : MatchAfter (exec (decode (some .family1) .read a v)) s t := by
  obtain ⟨hc, hr, -⟩ := (bindingsMatch_iff s t).1 h
  rcases decode_read_cases .family1 a v with ⟨-, hd⟩ | ⟨-, -, hd⟩ | ⟨-, -, hd⟩ | ⟨-, -, hd⟩ | ⟨-, hd⟩ <;> rw [hd]
  · exact matchAfter_of_respond h rfl (by simp only [exec, execRdRom0, hc.romRead_eq]; rfl)
  · exact matchAfter_of_respond h rfl (by simp only [exec, execRdRomX, hr.romxIdx_eq hc, hc.romRead_eq]; rfl)
  · exact matchAfter_of_respond h rfl rfl
  · exact ramWindowRead_matchAfter h a
  · exact matchAfter_of_respond h rfl rfl

/-- A Family1 register write keeps the relation, a mode write under the condition of R79. -/
theorem exec_decodeF1_matchAfter (a : Addr) (v : Byte)
    (hmode : 0x6000 ≤ a.toNat → s.regs.sec = 0#2 ∨ s.regs.mode = decide (v.toNat % 2 = 1)) :
    MatchAfter (exec (decodeF1 a v)) s t := by
  obtain ⟨hc, hr, -⟩ := (bindingsMatch_iff s t).1 h
  rw [decodeF1_eq]
  split_ifs
  · exact matchAfter_of_setRegs h (hr.wrRamEn _) rfl rfl
  · exact matchAfter_of_setRegs h (hr.wrBankLo v) rfl rfl
  · exact matchAfter_of_setRegs h (hr.wrSec v hc) (execWrF1Sec_eq a v s) (execWrF1Sec_eq a v t)
  · rw [← low1_beq_one] at hmode
    exact matchAfter_of_setRegs h (hr.wrMode (hmode (by omega))) rfl rfl

theorem exec_write_matchAfter (a : Addr) (v : Byte) (hmode : 0x6000 ≤ a.toNat → a.toNat ≤ 0x7FFF →
      s.regs.sec = 0#2 ∨ s.regs.mode = decide (v.toNat % 2 = 1)) :
    MatchAfter (exec (decode (some .family1) .write a v)) s t := by
  rcases decode_write_cases .family1 a v with ⟨ha, hd⟩ | ⟨-, -, hd⟩ | ⟨-, -, hd⟩ | ⟨-, hd⟩ <;> rw [hd]
  · exact exec_decodeF1_matchAfter h a v fun hlo => hmode hlo ha
  · exact matchAfter_of_respond h rfl rfl
  · exact ramWindowWrite_matchAfter h a v
  · exact matchAfter_of_respond h rfl rfl

end

/-! ## The statements -/

/-- Settles O51: the mux and the gate agree, so every access answers alike, and every register write the condition of R79
admits keeps the two register files matched. -/
theorem secondaryBindingsAgree : Obligations.SecondaryBindingsAgree := by
  intro s t h hl hmode
  obtain ⟨hc, -, -, hmaster, -⟩ := (bindingsMatch_iff s t).1 h
  cases hm : s.master with
  | nil => exact ⟨s, t, step_of_no_transaction hm, step_of_no_transaction (hmaster.trans hm), h, nofun⟩
  | cons tx txs =>
    have hb := buildable_of_legal hl
    have hmatch := bindingsMatch_setMaster h txs
    have after :
        MatchAfter (exec (decode (some .family1) tx.dir tx.addr tx.data)) (s.setMaster txs) (t.setMaster txs) := by
      obtain ⟨d, a, v⟩ := tx
      cases d with
      | read => exact exec_read_matchAfter hmatch a v
      | write => exact exec_write_matchAfter hmatch a v (hmode a v txs hm)
    obtain ⟨s', t', hs, ht, hmatch', hlast⟩ := after
    exact ⟨s', t', (step_of_family hc.family hb hm).trans hs,
      (step_of_family hc.family_right (hc.buildable_eq.trans hb) (hmaster.trans hm)).trans ht, hmatch', fun _ => hlast⟩

/-- Settles O42: a write behind the closed gate is dropped, and opening the gate again gives the block back as it was, so
the last read reaches the cell it reached before. -/
theorem closedGateHidesButKeepsRam : Obligations.ClosedGateHidesButKeepsRam := by
  refine ⟨fun s f a v b o hf hfs hl hen ha ht => ?_, fun s a v hf hl hen hlo hhi => ?_⟩
  · have hw : HasRamEn f := hfs.imp_right .inr
    have hg : ramGate s.config s.regs = true := (ramGate_of_hasRamEn hf hw s.regs).trans hen
    have h2 : f ≠ .family2 := by rcases hfs with rfl | rfl | rfl <;> decide
    have h7 : f ≠ .family7 := by rcases hfs with rfl | rfl | rfl <;> decide
    refine ⟨issueAll_closed_readsOpenBus hf hl hw ha v, ?_⟩
    rw [issueAll_reopened hf hl hw ha hen, exec_decodeRamRead_eq_ramWindowRead h2 h7]
    exact ⟨_, ramWindowRead_readsOneCell (s := (s.respond wroteNothing).setMaster []) hg ht rfl, ⟨rfl, rfl, rfl⟩, rfl⟩
  · have hw : HasRamEn .family2 := .inr (.inl rfl)
    have ha : inRamWindow a := ⟨hlo, by omega⟩
    have hg : ramGate s.config s.regs = true := (ramGate_of_hasRamEn hf hw s.regs).trans hen
    have ht : ramTarget s.config s.regs a = .ram 0 (a.toNat - 0xA000) := by
      rw [ramTarget_family2 hf, if_pos hhi, cellOffset_of_cellRegion ha hhi]
    refine ⟨issueAll_closed_readsOpenBus hf hl hw ha v, ?_⟩
    rw [issueAll_reopened hf hl hw ha hen]
    refine ⟨_, _, execRdRamF2_of_ramTarget (s := (s.respond wroteNothing).setMaster []) hg ht, ⟨rfl, rfl, rfl⟩, ?_, rfl⟩
    rw [toNat_cellByte, ramRead, Nat.zero_mul, Nat.zero_add]
    rfl

/-- Settles O35: the gate is `ram_en`, and behind it the target is the cell of the mux's bank at the address's offset. -/
theorem family1RamAccess : Obligations.Family1RamAccess := by
  intro s a v b k₀ hf ha hwf hb hk
  have hgate := ramGate_family1 hf s.regs
  have ht : ramTarget s.config s.regs a = .ram b (a.toNat - 0xA000) := by
    rw [ramTarget_family1 hf, ramOffset_of_ramWindow ha, ramIdx, hb]
  refine ⟨fun hen => ?_, fun hen => ?_⟩
  · have hg := hgate.trans hen
    exact ⟨ramWindowWrite_storesOneCell hg ht hk hwf v, ramWindowRead_readsOneCell hg ht hk⟩
  · have hg := hgate.trans hen
    exact ⟨ramWindowWrite_of_gate_closed hg a v, ramWindowRead_of_gate_closed hg a⟩

/-- Settles O27: each operation loads its register with the field of the byte, as a number. -/
theorem family1RegisterWrites : Obligations.Family1RegisterWrites := by
  intro s a v
  refine ⟨?_, ⟨bank1SetLow5 s.regs.bank1 (remapZero (low5 v)), ?_, rfl⟩, ?_⟩
  · rw [← enableValue_eq]
    rfl
  · rw [toNat_bank1SetLow5, toNat_remapZero_low5]
  · rw [← low1_beq_one]
    rfl

/-- Settles O28: binding and mode choose the register the two bits go to. -/
theorem family1SecondaryWrite : Obligations.Family1SecondaryWrite := by
  intro s a v
  rw [exec_wrF1Sec]
  refine ⟨fun hb => ⟨low2 v, toNat_low2 v, ?_⟩,
    fun hb hmode => ⟨bank1SetBits65 s.regs.bank1 (low2 v), ?_, ?_⟩,
    fun hb hmode => ⟨ramselSetLow2 s.regs.ramsel (low2 v), ?_, ?_⟩⟩
  · rw [secWritten_atAccess _ _ hb]
  · rw [toNat_bank1SetBits65, toNat_low2, Nat.mul_comm 32]
  · rw [secWritten_atWrite_mode0 _ _ hb hmode]
  · rw [toNat_ramselSetLow2, toNat_low2]
  · rw [secWritten_atWrite_mode1 _ _ hb hmode]

end Sys2Proof.Machine
end

section
/-! PROOFS. Family2 (43_family2.md): its register writes, and the 512 four-bit cells of its RAM window. -/

namespace Sys2Proof.Machine

/-- The remapped bank field of Family2 as a number. -/
theorem toNat_remapZero_low4 (v : Byte) :
    (remapZero (low4 v)).toNat = if v.toNat % 16 = 0 then 1 else v.toNat % 16 := by
  rw [toNat_remapZero (by decide), toNat_low4]

/-- The byte a Family2 write stores, as a number (R85). -/
theorem toNat_setWidth_low4 (v : Byte) : ((low4 v).setWidth 8).toNat = v.toNat % 16 := by
  rw [BitVec.toNat_setWidth_of_le (by decide), toNat_low4]

/-! ## Family2's RAM target (R27, R40) -/

section

variable {c : Config} (hf : c.family = some .family2) (r : Regs)

include hf

theorem ramGate_family2 : ramGate c r = r.ramEn := ramGate_of_hasRamEn hf (.inr (.inl rfl)) r

theorem ramTarget_of_cellRegion {a : Addr} (ha : inRamWindow a) (hcell : a.toNat ≤ 0xA1FF) :
    ramTarget c r a = .ram 0 (a.toNat - 0xA000) := by
  rw [ramTarget_family2 hf, if_pos hcell, cellOffset_of_cellRegion ha hcell]

theorem ramTarget_above_cellRegion {a : Addr} (ha : 0xA200 ≤ a.toNat) : ramTarget c r a = .nothing := by
  rw [ramTarget_family2 hf, if_neg (by omega)]

end

/-! ## A RAM-window access of Family2 (R85, R86) -/

theorem ramRead_bankZero (s : State) (o : Nat) : ramRead s 0 o = s.ram.read o := by
  rw [ramRead, Nat.zero_mul, Nat.zero_add]

/-- The block after the write of the low nibble of `v` into a cell of bank 0, which ends `OK`. -/
def State.wroteCell (o : Nat) (v : Byte) (s : State) : State :=
  (s.setRam (s.ram.write o ((low4 v).setWidth 8))).respond ⟨.ok, none, .ram 0 o (some ((low4 v).setWidth 8))⟩

/-- A cell just written answers with the low nibble of the byte, below the parameter. -/
theorem toNat_cellByte_wroteCell {s : State} (hwf : s.ram.wf) (c : Config) (o : Nat) (v : Byte) :
    (cellByte c (ramRead (s.wroteCell o v) 0 o)).toNat = 16 * c.f2HiNibble.toNat + v.toNat % 16 := by
  have stored : (s.wroteCell o v).ram.read o = (low4 v).setWidth 8 := (Memory.read_write hwf _ _ _).trans (if_pos rfl)
  rw [toNat_cellByte, ramRead_bankZero, stored, toNat_setWidth_low4, Nat.mod_mod]

section

variable {s : State} {a : Addr} {o : Nat} (v : Byte)

/-- Behind an open gate a write that reaches a cell of bank 0 stores the low nibble there. -/
theorem execWrF2Ram_of_ramTarget (hg : ramGate s.config s.regs = true) (ht : ramTarget s.config s.regs a = .ram 0 o) :
    execWrF2Ram a v s = .next (s.wroteCell o v) := by
  simp only [execWrF2Ram, hg, ht, if_true, ramWrite, Nat.zero_mul, Nat.zero_add]
  rfl

/-- A write that reaches no cell is dropped, whether the gate is open or not. -/
theorem execWrF2Ram_of_no_target (ht : ramTarget s.config s.regs a = .nothing) :
    execWrF2Ram a v s = .next { s with last := some wroteNothing } := by
  simp only [execWrF2Ram, ht, ite_self]
  rfl

/-- A read that reaches no cell gives open bus, whether the gate is open or not. -/
theorem execRdRamF2_of_no_target (ht : ramTarget s.config s.regs a = .nothing) :
    execRdRamF2 a s = .next { s with last := some ⟨.ok, some s.config.openBus, .idle⟩ } := by
  simp only [execRdRamF2, ht, ite_self]
  rfl

end

/-- A write to the RAM window at the head of a list carries out the family's operation; then the rest is issued. -/
theorem issueAll_wr_of_ramWindow_cons {s t : State} {f : Family} {a : Addr} {v : Byte} {txs : List Transaction}
    (hf : s.config.family = some f) (hl : legal s.config = true) (ha : inRamWindow a)
    (hexec : exec (decodeRamWrite f a v) (s.setMaster txs) = .next t) (hm : t.master = txs) :
    issueAll (wr a v :: txs) s = issueAll txs t := by
  rw [← decode_write_of_ramWindow ha] at hexec
  exact issueAll_cons_of_next
    ((step_of_family (s := { s with master := wr a v :: txs }) hf (buildable_of_legal hl) rfl).trans hexec) hm

/-! ## The statements -/

/-- Settles O36: behind the open gate `ram_en` the target is the cell of bank 0 at the address's offset, and above the
cells there is no target. -/
theorem family2RamAccess : Obligations.Family2RamAccess := by
  intro s a v hf ha hwf
  have hgate := ramGate_family2 hf s.regs
  refine ⟨fun hen hcell => ?_, ?_⟩
  · have hg := hgate.trans hen
    have ht := ramTarget_of_cellRegion hf s.regs ha hcell
    refine ⟨⟨_, _, toNat_setWidth_low4 v, Memory.read_write hwf _ _, execWrF2Ram_of_ramTarget v hg ht⟩,
      ⟨_, ?_, execRdRamF2_of_ramTarget hg ht⟩⟩
    rw [toNat_cellByte, ramRead_bankZero]
  · rintro (hen | hlo)
    · have hg := hgate.trans hen
      exact ⟨execWrF2Ram_of_gate_closed hg a v, execRdRamF2_of_gate_closed hg a⟩
    · have ht := ramTarget_above_cellRegion hf s.regs hlo
      exact ⟨execWrF2Ram_of_no_target v ht, execRdRamF2_of_no_target ht⟩

/-- Settles O41: the read reaches the cell the write stored in, which holds the low nibble of the byte. -/
theorem family2NibbleRoundTrip : Obligations.Family2NibbleRoundTrip := by
  intro s a v hf hl hwf hen hlo hhi
  have ha : inRamWindow a := ⟨hlo, by omega⟩
  have hg := (ramGate_family2 hf s.regs).trans hen
  have ht := ramTarget_of_cellRegion hf s.regs ha hhi
  have issued : issueAll [wr a v, rd a] s = execRdRamF2 a ((s.setMaster []).wroteCell (a.toNat - 0xA000) v) := calc
    issueAll [wr a v, rd a] s = issueAll [rd a] ((s.setMaster [rd a]).wroteCell (a.toNat - 0xA000) v) :=
      issueAll_wr_of_ramWindow_cons hf hl ha (execWrF2Ram_of_ramTarget (s := s.setMaster [rd a]) v hg ht) rfl
    _ = execRdRamF2 a ((s.setMaster []).wroteCell (a.toNat - 0xA000) v) :=
      issueAll_rd_of_ramWindow (s := (s.setMaster [rd a]).wroteCell _ v) hf hl ha
  have byte := toNat_cellByte_wroteCell (s := s.setMaster []) hwf s.config (a.toNat - 0xA000) v
  exact ⟨_, cellByte s.config _, _,
    issued.trans (execRdRamF2_of_ramTarget (s := (s.setMaster []).wroteCell _ v) hg ht), rfl, by omega, by omega⟩

/-- Settles O29: each operation loads its register with the field of the byte, as a number. -/
theorem family2RegisterWrites : Obligations.Family2RegisterWrites := by
  intro s a v
  refine ⟨?_, ⟨bank1SetLow4 s.regs.bank1 (remapZero (low4 v)), ?_, rfl⟩⟩
  · rw [← enableValue_eq]
    rfl
  · rw [toNat_bank1SetLow4, toNat_remapZero_low4]

end Sys2Proof.Machine
end

section
/-! PROOFS. Family3 (44_family3.md): its register writes with those of Family5 that rest on decisions of the spec, and its
RAM window, which reaches a RAM cell, a register of the clock, or nothing. -/

namespace Sys2Proof.Machine

/-- The remapped bank field of Family3 as a number. -/
theorem toNat_remapZero_low7 (v : Byte) :
    (remapZero (low7 v)).toNat = if v.toNat % 128 = 0 then 1 else v.toNat % 128 := by
  rw [toNat_remapZero (by decide), toNat_low7]

/-! ## Family3's RAM target (R39, R40) -/

section

variable {c : Config} {r : Regs} {a : Addr} (hf : c.family = some .family3)

include hf

theorem ramIdx_family3 : ramIdx c r = r.ramsel.toNat % c.nRamBanks := by
  simp only [ramIdx, ramSel, hf]

theorem ramTarget_family3_bank (ha : inRamWindow a) (hsel : r.ramsel.toNat ≤ 7) :
    ramTarget c r a = .ram (r.ramsel.toNat % c.nRamBanks) (a.toNat - 0xA000) := by
  rw [ramTarget_family3 hf, if_pos hsel, ramIdx_family3 hf, ramOffset_of_ramWindow ha]

theorem ramTarget_family3_clock (hlo : 8 ≤ r.ramsel.toNat) (hhi : r.ramsel.toNat ≤ 12) :
    ramTarget c r a = .clock r.ramsel := by
  rw [ramTarget_family3 hf, if_neg (by omega), if_pos hhi]

theorem ramTarget_family3_nothing (hsel : 13 ≤ r.ramsel.toNat) : ramTarget c r a = .nothing := by
  rw [ramTarget_family3 hf, if_neg (by omega), if_neg (by omega)]

end

/-! ## A RAM-window access that reaches the clock (R93) -/

section

variable {s : State} {a : Addr} {i : BitVec 4} (hg : ramGate s.config s.regs = true)
  (ht : ramTarget s.config s.regs a = .clock i)

include hg ht

theorem ramWindowWrite_of_clock (v : Byte) :
    ramWindowWrite a v s = .next { s with last := some ⟨.ok, none, .clock i (some v)⟩ } := by
  simp only [ramWindowWrite, hg, ht, if_true, endWrite_eq]

theorem ramWindowRead_of_clock :
    ramWindowRead a s = .next { clockUsed s with last := some ⟨.ok, some (clockByte s), .clock i none⟩ } := by
  simp only [ramWindowRead, hg, ht, if_true, endRead_eq]

theorem ramWindowRead_of_clock_supplied {x : Byte} {xs : List Byte} (hin : s.clkIn = x :: xs) :
    ramWindowRead a s = .next { s with clkIn := xs, last := some ⟨.ok, some x, .clock i none⟩ } := by
  obtain ⟨y, ys, hys, hbyte, hused⟩ | ⟨hnil, -, -⟩ := clock_cases s
  · obtain ⟨rfl, rfl⟩ := List.cons.inj (hys.symm.trans hin)
    rw [ramWindowRead_of_clock hg ht, hbyte, hused]
  · cases hnil.symm.trans hin

theorem ramWindowRead_of_clock_free (hin : s.clkIn = []) :
    ramWindowRead a s = .next { s with
      draws := s.draws + 1, last := some ⟨.ok, some (Config.freeClockByte s.draws), .clock i none⟩ } := by
  obtain ⟨y, ys, hys, -, -⟩ | ⟨-, hbyte, hused⟩ := clock_cases s
  · cases hys.symm.trans hin
  · rw [ramWindowRead_of_clock hg ht, hbyte, hused]

end

/-! ## A RAM-window access that reaches nothing, whether the gate is open or not (R40) -/

section

variable {s : State} {a : Addr} (ht : ramTarget s.config s.regs a = .nothing)

include ht

theorem ramWindowWrite_of_no_target (v : Byte) :
    ramWindowWrite a v s = .next { s with last := some wroteNothing } := by
  simp only [ramWindowWrite, ht, ite_self]
  rfl

theorem ramWindowRead_of_no_target :
    ramWindowRead a s = .next { s with last := some ⟨.ok, some s.config.openBus, .idle⟩ } := by
  simp only [ramWindowRead, ht, ite_self, endRead_eq]

end

/-! ## The statements -/

/-- Settles O37: behind the open gate `ram_en` the selector decides whether the access reaches a cell, the clock or
nothing. -/
theorem family3RamAndClockAccess : Obligations.Family3RamAndClockAccess := by
  intro s a v b k₀ hf ha hwf hb hk
  have hgate := ramGate_family3 hf s.regs
  refine ⟨fun hen hsel => ?_, fun hen hlo hhi => ?_, ?_⟩
  · have hg := hgate.trans hen
    have ht : ramTarget s.config s.regs a = .ram b (a.toNat - 0xA000) := hb ▸ ramTarget_family3_bank hf ha hsel
    exact ⟨ramWindowWrite_storesOneCell hg ht hk hwf v, ramWindowRead_readsOneCell hg ht hk⟩
  · have hg := hgate.trans hen
    have ht := ramTarget_family3_clock (a := a) hf hlo hhi
    exact ⟨ramWindowWrite_of_clock hg ht v, fun x xs hin => ramWindowRead_of_clock_supplied hg ht hin,
      fun hin => ⟨_, ramWindowRead_of_clock_free hg ht hin⟩⟩
  · rintro (hen | hsel)
    · have hg := hgate.trans hen
      exact ⟨ramWindowWrite_of_gate_closed hg a v, ramWindowRead_of_gate_closed hg a⟩
    · have ht := ramTarget_family3_nothing (a := a) hf hsel
      exact ⟨ramWindowWrite_of_no_target ht v, ramWindowRead_of_no_target ht⟩

/-- Settles O30: each operation loads its register with the field of the byte, as a number. -/
theorem family3EnableAndBankWrites : Obligations.Family3EnableAndBankWrites := by
  intro s a v
  refine ⟨?_, ⟨bank1SetLow7 s.regs.bank1 (remapZero (low7 v)), ?_, rfl⟩⟩
  · rw [← enableValue_eq]
    rfl
  · rw [toNat_bank1SetLow7, toNat_remapZero_low7]

/-- Settles O32: `ramsel` takes `v[3:0]`, the enable is compared as in the other families, and `v[0]` lands in bit 8. -/
theorem decidedRegisterWrites : Obligations.DecidedRegisterWrites := by
  intro s a v
  refine ⟨⟨low4 v, toNat_low4 v, rfl⟩, ?_, ⟨bank1SetBit8 s.regs.bank1 (low1 v), ?_, rfl⟩⟩
  · rw [← enableValue_eq]
    rfl
  · rw [toNat_bank1SetBit8, toNat_low1, Nat.mul_comm]

end Sys2Proof.Machine
end

section
/-! PROOFS. Family5 (45_family5.md): its writes of `bank1[7:0]` and `ramsel`, and its RAM window, which reaches a RAM cell
for every value of the selector. -/

namespace Sys2Proof.Machine

/-! ## Family5's RAM gate and target (R27, R39, R40) -/

section

variable {c : Config} (hf : c.family = some .family5) (r : Regs)

include hf

theorem ramGate_family5 : ramGate c r = r.ramEn := ramGate_of_hasRamEn hf (.inr (.inr (.inr rfl))) r

theorem ramIdx_family5 : ramIdx c r = r.ramsel.toNat % c.nRamBanks := by
  simp only [ramIdx, ramSel, hf]

theorem ramTarget_family5 {a : Addr} (ha : inRamWindow a) :
    ramTarget c r a = .ram (r.ramsel.toNat % c.nRamBanks) (a.toNat - 0xA000) := by
  simp only [ramTarget, hf, ramIdx_family5 hf, ramOffset_of_ramWindow ha]

end

/-! ## The statements -/

/-- Settles O38: the gate is `ram_en`, and behind it the target is the cell of the bank of `ramsel` at the address's
offset, with no value of the selector left out. -/
theorem family5RamAccess : Obligations.Family5RamAccess := by
  intro s a v b k₀ hf ha hwf hb hk
  have hgate := ramGate_family5 hf s.regs
  have ht : ramTarget s.config s.regs a = .ram b (a.toNat - 0xA000) := hb ▸ ramTarget_family5 hf s.regs ha
  refine ⟨fun hen => ?_, fun hen => ?_⟩
  · have hg := hgate.trans hen
    exact ⟨ramWindowWrite_storesOneCell hg ht hk hwf v, ramWindowRead_readsOneCell hg ht hk⟩
  · have hg := hgate.trans hen
    exact ⟨ramWindowWrite_of_gate_closed hg a v, ramWindowRead_of_gate_closed hg a⟩

/-- Settles O31: the whole byte lands below bit 8 of `bank1`, and `ramsel` takes `v[3:0]`. -/
theorem family5BankAndRamWrites : Obligations.Family5BankAndRamWrites :=
  fun s _ v => ⟨⟨bank1SetLow8 s.regs.bank1 v, toNat_bank1SetLow8 s.regs.bank1 v, rfl⟩, ⟨low4 v, toNat_low4 v, rfl⟩⟩

end Sys2Proof.Machine
end

section
/-! PROOFS. Family6 and Family7 (46_family6_family7.md): writes that raise, the neutral byte, and the RAM window of Family6
behind a gate that no reachable state has open. -/

namespace Sys2Proof.Machine

/-! ## Family6's RAM gate in a reachable state (R27, R32) -/

section

variable {c : Config} (hf : c.family = some .family6) (r : Regs)

include hf

theorem ramGate_family6 : ramGate c r = r.ramEn := by simp only [ramGate, hf]

/-- Family6 has no register to write, so a reachable state has the load values. -/
theorem regsInv_family6_iff : regsInv c r = true ↔ r = Regs.atLoad c := by
  simp only [regsInv, hf, decide_eq_true_iff]

end

theorem ramGate_family6_closed {s : State} (hf : s.config.family = some .family6) (hi : Inv s) :
    ramGate s.config s.regs = false := by
  obtain ⟨hregs, -⟩ := hi
  rw [ramGate_family6 hf, (regsInv_family6_iff hf _).1 hregs, Regs.atLoad_ramEn]

/-! ## The statement -/

/-- Settles O39: three writes raise and the Family7 read answers the parameter in every state; under Family6 the load value
of `ram_en` closes the gate of the common procedures. -/
theorem family6And7Accesses : Obligations.Family6And7Accesses := by
  intro s a v
  refine ⟨raiseError_eq .unimplementedFamily s, raiseError_eq .unimplementedFamily s,
    raiseError_eq .unimplementedFamily s, endRead_eq s.config.f7Neutral .idle s, fun hf hi => ?_⟩
  have hg := ramGate_family6_closed hf hi
  exact ⟨ramWindowWrite_of_gate_closed hg a v, ramWindowRead_of_gate_closed hg a⟩

end Sys2Proof.Machine
end

section
/-! PROOFS. Exceptions (60_exceptions.md): how a transaction ends, errors that change nothing but the response, and a block
that does not look back at its last response. -/

namespace Sys2Proof.Machine

/-! ## The result codes (R112) -/

theorem rspErr_eq_one_iff (r : Response) : r.rspErr = 1#2 ↔ r.result = .invalidAddress := by
  unfold Response.rspErr
  cases r.result <;> decide

theorem rspErr_eq_two_iff (r : Response) : r.rspErr = 2#2 ↔ r.result = .unimplementedFamily := by
  unfold Response.rspErr
  cases r.result <;> decide

theorem rspErr_ne_three (r : Response) : r.rspErr ≠ 3#2 := by
  unfold Response.rspErr
  cases r.result <;> decide

/-! ## How a transaction ends (R107, R108, R111) -/

/-- The state shows a response `OK` to a transaction of direction `d`, with a byte exactly for a read. -/
def ShowsOk (d : Dir) (t : State) : Prop := ∃ q p, t.last = some ⟨.ok, q, p⟩ ∧ (q.isSome = true ↔ d = .read)

theorem showsOk_read {t : State} {v : Byte} {p : Port} (h : t.last = some ⟨.ok, some v, p⟩) : ShowsOk .read t :=
  ⟨_, _, h, by simp⟩

theorem showsOk_write {t : State} {p : Port} (h : t.last = some ⟨.ok, none, p⟩) : ShowsOk .write t :=
  ⟨_, _, h, by simp⟩

/-- The writes of Family6 and Family7 whose protocol the source does not define (R101, R104, R105). -/
def UndefinedWrite (f : Family) (tx : Transaction) : Prop :=
  tx.dir = .write ∧ (f = .family6 ∧ inProgramWindow tx.addr ∨ f = .family7 ∧ wellRouted tx)

/-- How a transaction that takes the block from `s` to `t` ends under a family: `OK`, or with one of the two errors, which
leave all but the response as it was. -/
inductive Ends (f : Family) (tx : Transaction) (s t : State) : Prop where
  | ok (shows : ShowsOk tx.dir t) (routed : wellRouted tx) (defined : ¬ UndefinedWrite f tx)
  | invalid (addr : inInvalidRange tx.addr) (state : t = s.respond ⟨.invalidAddress, none, .idle⟩)
  | unimplemented (undefined : UndefinedWrite f tx) (state : t = s.respond ⟨.unimplementedFamily, none, .idle⟩)

/-- The windows and the two invalid ranges share the address space (R35). -/
theorem wellRouted_iff_not_invalid (tx : Transaction) : wellRouted tx ↔ ¬ inInvalidRange tx.addr := by
  unfold wellRouted inProgramWindow inRamWindow inInvalidRange
  omega

theorem wellRouted_of_undefinedWrite {f : Family} {tx : Transaction} (h : UndefinedWrite f tx) : wellRouted tx := by
  obtain ⟨-, ⟨-, hprog⟩ | ⟨-, hrouted⟩⟩ := h
  · exact .inl hprog
  · exact hrouted

section

variable {f : Family} {a : Addr} {v : Byte} {s t : State}

theorem ramWindowRead_showsOk (h : ramWindowRead a s = .next t) : ShowsOk .read t := by
  rcases ramWindowRead_cases a s with ⟨-, hr⟩ | ⟨-, ⟨b, o, -, hr⟩ | ⟨i, -, hr⟩ | ⟨-, hr⟩⟩ <;> rw [hr] at h <;> cases h <;>
    exact showsOk_read rfl

theorem execRdRamF2_showsOk (h : execRdRamF2 a s = .next t) : ShowsOk .read t := by
  unfold execRdRamF2 at h
  split at h
  · split at h <;> cases h <;> exact showsOk_read rfl
  · cases h
    exact showsOk_read rfl

theorem exec_decodeRamRead_showsOk (h : exec (decodeRamRead f a) s = .next t) : ShowsOk .read t := by
  cases f with
  | noMapper | family1 | family3 | family5 | family6 => exact ramWindowRead_showsOk h
  | family2 => exact execRdRamF2_showsOk h
  | family7 =>
    cases h
    exact showsOk_read rfl

theorem exec_read_ends (h : exec (decode (some f) .read a v) s = .next t) : Ends f ⟨.read, a, v⟩ s t := by
  have defined : ¬ UndefinedWrite f ⟨.read, a, v⟩ := fun ⟨hdir, _⟩ => nomatch hdir
  rcases decode_read_cases f a v with ⟨ha, hd⟩ | ⟨-, ha, hd⟩ | ⟨hlo, hhi, hd⟩ | ⟨hlo, hhi, hd⟩ | ⟨ha, hd⟩ <;> rw [hd] at h
  · cases h
    exact .ok (showsOk_read rfl) (.inl (ha.trans (by decide))) defined
  · cases h
    exact .ok (showsOk_read rfl) (.inl ha) defined
  · cases h
    exact .invalid (.inl ⟨hlo, hhi⟩) rfl
  · exact .ok (exec_decodeRamRead_showsOk h) (.inr ⟨hlo, hhi⟩) defined
  · cases h
    exact .invalid (.inr ha) rfl

/-- Outside Family6 and Family7 a register write loads registers, perhaps as they were, and ends `OK` (R56(c), R66). -/
theorem exec_decodeRegWrite_eq_endWrite (h6 : f ≠ .family6) (h7 : f ≠ .family7) (a : Addr) (v : Byte) (s : State) :
    ∃ q, exec (decodeRegWrite f a v) s = endWrite .idle (s.setRegs q) := by
  cases f with
  | family6 => exact absurd rfl h6
  | family7 => exact absurd rfl h7
  | noMapper => exact ⟨s.regs, rfl⟩
  | family1 =>
    rw [decodeRegWrite, decodeF1]
    split_ifs
    · exact ⟨_, rfl⟩
    · exact ⟨_, rfl⟩
    · exact ⟨_, execWrF1Sec_eq a v s⟩
    · exact ⟨_, rfl⟩
  | family2 =>
    rw [decodeRegWrite, decodeF2]
    split_ifs
    · exact ⟨s.regs, rfl⟩
    · exact ⟨_, rfl⟩
    · exact ⟨_, rfl⟩
    · exact ⟨s.regs, rfl⟩
    · exact ⟨s.regs, rfl⟩
  | family3 =>
    rw [decodeRegWrite, decodeF3]
    split_ifs
    · exact ⟨_, rfl⟩
    · exact ⟨_, rfl⟩
    · exact ⟨_, rfl⟩
    · exact ⟨s.regs, rfl⟩
  | family5 =>
    rw [decodeRegWrite, decodeF5]
    split_ifs
    · exact ⟨_, rfl⟩
    · exact ⟨_, rfl⟩
    · exact ⟨_, rfl⟩
    · exact ⟨_, rfl⟩
    · exact ⟨s.regs, rfl⟩

theorem exec_decodeRegWrite_ends (ha : inProgramWindow a) (h : exec (decodeRegWrite f a v) s = .next t) :
    Ends f ⟨.write, a, v⟩ s t := by
  by_cases h6 : f = .family6
  · subst h6
    cases h
    exact .unimplemented ⟨rfl, .inl ⟨rfl, ha⟩⟩ rfl
  by_cases h7 : f = .family7
  · subst h7
    cases h
    exact .unimplemented ⟨rfl, .inr ⟨rfl, .inl ha⟩⟩ rfl
  obtain ⟨q, hq⟩ := exec_decodeRegWrite_eq_endWrite h6 h7 a v s
  cases hq.symm.trans h
  refine .ok (showsOk_write rfl) (.inl ha) ?_
  rintro ⟨-, ⟨hf, -⟩ | ⟨hf, -⟩⟩
  · exact h6 hf
  · exact h7 hf

theorem ramWindowWrite_showsOk (h : ramWindowWrite a v s = .next t) : ShowsOk .write t := by
  rcases ramWindowWrite_cases a v s with ⟨-, hr⟩ | ⟨-, ⟨b, o, -, hr⟩ | ⟨i, -, hr⟩ | ⟨-, hr⟩⟩ <;> rw [hr] at h <;>
    cases h <;> exact showsOk_write rfl

theorem execWrF2Ram_showsOk (h : execWrF2Ram a v s = .next t) : ShowsOk .write t := by
  unfold execWrF2Ram at h
  split at h
  · split at h <;> cases h <;> exact showsOk_write rfl
  · cases h
    exact showsOk_write rfl

theorem exec_decodeRamWrite_showsOk (h7 : f ≠ .family7) (h : exec (decodeRamWrite f a v) s = .next t) :
    ShowsOk .write t := by
  cases f with
  | noMapper | family1 | family3 | family5 | family6 => exact ramWindowWrite_showsOk h
  | family2 => exact execWrF2Ram_showsOk h
  | family7 => exact absurd rfl h7

theorem exec_decodeRamWrite_ends (ha : inRamWindow a) (h : exec (decodeRamWrite f a v) s = .next t) :
    Ends f ⟨.write, a, v⟩ s t := by
  by_cases h7 : f = .family7
  · subst h7
    cases h
    exact .unimplemented ⟨rfl, .inr ⟨rfl, .inr ha⟩⟩ rfl
  · refine .ok (exec_decodeRamWrite_showsOk h7 h) (.inr ha) ?_
    rintro ⟨-, ⟨-, hprog⟩ | ⟨hf, -⟩⟩
    · exact absurd (hprog.trans' ha.1) (by decide)
    · exact h7 hf

theorem exec_write_ends (h : exec (decode (some f) .write a v) s = .next t) : Ends f ⟨.write, a, v⟩ s t := by
  rcases decode_write_cases f a v with ⟨ha, hd⟩ | ⟨hlo, hhi, hd⟩ | ⟨hlo, hhi, hd⟩ | ⟨ha, hd⟩ <;> rw [hd] at h
  · exact exec_decodeRegWrite_ends ha h
  · cases h
    exact .invalid (.inl ⟨hlo, hhi⟩) rfl
  · exact exec_decodeRamWrite_ends ⟨hlo, hhi⟩ h
  · cases h
    exact .invalid (.inr ha) rfl

theorem exec_decode_ends {tx : Transaction} (h : exec (decode (some f) tx.dir tx.addr tx.data) s = .next t) :
    Ends f tx s t := by
  obtain ⟨d, a, v⟩ := tx
  cases d with
  | read => exact exec_read_ends h
  | write => exact exec_write_ends h

end

/-- A step that takes a transaction ends it in one of the three ways. -/
theorem step_ends {s t : State} {tx : Transaction} {txs : List Transaction} (hl : legal s.config = true)
    (hm : s.master = tx :: txs) (h : step s = .next t) :
    ∃ f, s.config.family = some f ∧ Ends f tx (s.setMaster txs) t := by
  obtain ⟨f, hf⟩ := family_of_legal hl
  rw [step_of_family hf (buildable_of_legal hl) hm] at h
  exact ⟨f, hf, exec_decode_ends h⟩

section

variable {f : Family} {tx : Transaction} {s t : State} {r : Response}

/-- Which of the two errors a transaction ends with, if any. -/
theorem Ends.result_iff (h : Ends f tx s t) (hr : t.last = some r) :
    (r.result = .invalidAddress ↔ inInvalidRange tx.addr) ∧ (r.result = .unimplementedFamily ↔ UndefinedWrite f tx) := by
  have routed_iff := wellRouted_iff_not_invalid tx
  cases h with
  | ok shows routed defined =>
    obtain ⟨q, p, hlast, -⟩ := shows
    cases hlast.symm.trans hr
    exact ⟨iff_of_false nofun (routed_iff.1 routed), iff_of_false nofun defined⟩
  | invalid addr state =>
    subst state
    cases hr
    exact ⟨iff_of_true rfl addr, iff_of_false nofun fun hu => routed_iff.1 (wellRouted_of_undefinedWrite hu) addr⟩
  | unimplemented undefined state =>
    subst state
    cases hr
    exact ⟨iff_of_false nofun (routed_iff.1 (wellRouted_of_undefinedWrite undefined)), iff_of_true rfl undefined⟩

/-- A transaction that does not end `OK` leaves all but the response as it was (R112). -/
theorem Ends.eq_respond_of_error (h : Ends f tx s t) (hr : t.last = some r) (he : r.result ≠ .ok) : t = s.respond r := by
  cases h with
  | ok shows _ _ =>
    obtain ⟨q, p, hlast, -⟩ := shows
    cases hlast.symm.trans hr
    exact absurd rfl he
  | invalid _ state | unimplemented _ state =>
    subst state
    cases hr
    rfl

end

/-! ## The block does not look back at its last response (R114) -/

@[simp] theorem clockUsed_respond (r : Response) (s : State) : clockUsed (s.respond r) = (clockUsed s).respond r := by
  cases hin : s.clkIn <;> simp [clockUsed, State.respond, State.setClock, hin]

section

variable (r : Response) (s : State) (a : Addr) (v : Byte)

theorem ramWindowRead_respond : ramWindowRead a (s.respond r) = ramWindowRead a s := by
  unfold ramWindowRead
  rw [State.respond_config, State.respond_regs, clockUsed_respond]
  split
  · split <;> rfl
  · rfl

theorem ramWindowWrite_respond : ramWindowWrite a v (s.respond r) = ramWindowWrite a v s := by
  unfold ramWindowWrite
  rw [State.respond_config, State.respond_regs]
  split
  · split <;> rfl
  · rfl

theorem execRdRamF2_respond : execRdRamF2 a (s.respond r) = execRdRamF2 a s := by
  unfold execRdRamF2
  rw [State.respond_config, State.respond_regs]
  split
  · split <;> rfl
  · rfl

theorem execWrF2Ram_respond : execWrF2Ram a v (s.respond r) = execWrF2Ram a v s := by
  unfold execWrF2Ram
  rw [State.respond_config, State.respond_regs]
  split
  · split <;> rfl
  · rfl

/-- Every operation overwrites the last response and reads it nowhere. -/
theorem exec_respond (i : Instr) : exec i (s.respond r) = exec i s := by
  cases i with
  | rdRamNm a | rdRamF1 a | rdRamF3 a | rdRamF5 a | rdRamF6 a => exact ramWindowRead_respond r s a
  | wrNmRam a v | wrF1Ram a v | wrF3Ram a v | wrF5Ram a v | wrF6Ram a v => exact ramWindowWrite_respond r s a v
  | rdRamF2 a => exact execRdRamF2_respond r s a
  | wrF2Ram a v => exact execWrF2Ram_respond r s a v
  | wrF1Sec a v => exact (execWrF1Sec_eq a v (s.respond r)).trans (execWrF1Sec_eq a v s).symm
  | _ => rfl

end

theorem step_respond {s : State} (hm : s.master ≠ []) (r : Response) : step (s.respond r) = step s := by
  obtain ⟨tx, txs, hm⟩ := List.exists_cons_of_ne_nil hm
  rw [step_of_transaction hm, step_of_transaction (s := s.respond r) hm, State.respond_config]
  split
  · exact exec_respond r (s.setMaster txs) _
  · rfl

theorem runSteps_succ_congr {s t : State} (h : step s = step t) (n : Nat) : runSteps (n + 1) s = runSteps (n + 1) t := by
  cases ht : step t with
  | next u => rw [runSteps_succ_of_next (h.trans ht), runSteps_succ_of_next ht]
  | fault e => cases e
  | refused e => rw [runSteps_succ_of_refused (h.trans ht), runSteps_succ_of_refused ht]

/-- Whatever is issued next goes on as if another response, or none, stood before it. -/
theorem issueAll_cons_respond (tx : Transaction) (txs pending : List Transaction) (r : Response) (s : State) :
    issueAll (tx :: txs) ((s.setMaster pending).respond r) = issueAll (tx :: txs) s :=
  runSteps_succ_congr (step_respond (s := s.setMaster (tx :: txs)) (by simp) r) txs.length

/-! ## The statements -/

/-- Settles O20: of the three ways to end, the one with this error is the one outside the windows. -/
theorem invalidAddressExactlyOutsideWindows : Obligations.InvalidAddressExactlyOutsideWindows := by
  intro s t tx txs r hl hm h hr
  obtain ⟨f, -, hends⟩ := step_ends hl hm h
  obtain ⟨invalid, -⟩ := hends.result_iff hr
  exact ⟨invalid, (rspErr_eq_one_iff r).trans invalid⟩

/-- Settles O21: of the three ways to end, the one with this error is the one of the undefined writes. -/
theorem unimplementedFamilyExactlyThere : Obligations.UnimplementedFamilyExactlyThere := by
  intro s t tx txs r hl hm h hr
  obtain ⟨f, hf, hends⟩ := step_ends hl hm h
  obtain ⟨-, unimplemented⟩ := hends.result_iff hr
  refine ⟨?_, rspErr_eq_two_iff r⟩
  simp only [hf, Option.some.injEq]
  exact unimplemented

/-- Settles O22: the step answers, and neither error fits a transaction that is routed and defined. -/
theorem normalProtocolEndsOk : Obligations.NormalProtocolEndsOk := by
  intro s tx txs hl hm hrouted h7 h6
  obtain ⟨t, ht⟩ := everyOperationAnswers.2 s hl
  obtain ⟨f, hf, hends⟩ := step_ends hl hm ht
  cases hends with
  | ok shows _ _ =>
    obtain ⟨q, p, hlast, hbyte⟩ := shows
    exact ⟨t, _, ht, hlast, rfl, hbyte⟩
  | invalid addr _ => exact absurd addr ((wellRouted_iff_not_invalid tx).1 hrouted)
  | unimplemented undefined _ =>
    obtain ⟨hdir, ⟨rfl, hprog⟩ | ⟨rfl, -⟩⟩ := undefined
    · exact absurd hf (h6 hdir hprog)
    · exact absurd hf (h7 hdir)

/-- Settles O23: an answer `OK` has a byte exactly for a read, and an error is the state before with the code alone. -/
theorem responseShape : Obligations.ResponseShape := by
  intro s t tx txs hl hm h
  obtain ⟨f, -, hends⟩ := step_ends hl hm h
  cases hends with
  | ok shows _ _ =>
    obtain ⟨q, p, hlast, hbyte⟩ := shows
    exact ⟨_, hlast, hbyte.trans (and_iff_left rfl).symm, rspErr_ne_three _, fun he => absurd rfl he⟩
  | invalid _ state | unimplemented _ state =>
    subst state
    exact ⟨_, rfl, iff_of_false nofun nofun, rspErr_ne_three _, fun _ => rfl⟩

/-- Settles O24: an error changes the response alone, and what is issued next does not look at it. -/
theorem errorsDoNotLatch : Obligations.ErrorsDoNotLatch := by
  intro s t tx r hl h hr he
  obtain ⟨f, hf⟩ := family_of_legal hl
  have hends : Ends f tx (s.setMaster []) t := exec_decode_ends ((issueAll_singleton hf hl tx).symm.trans h)
  obtain rfl := hends.eq_respond_of_error hr he
  refine ⟨⟨rfl, rfl, rfl⟩, ?_, fun tx' txs => issueAll_cons_respond tx' txs [] r s⟩
  simp only [responseTo, issueAll_cons_respond, h]
  rfl

/-- Settles O9, by induction on the number of steps. -/
theorem nothingHappensBetweenTransactions : Obligations.NothingHappensBetweenTransactions := by
  intro s n hm
  induction n with
  | zero => rfl
  | succ n ih => exact (runSteps_succ_of_next (step_of_no_transaction hm)).trans ih

/-- Settles O10: no block can be built, or the strap names no family and every transaction decodes to `CFG.ILLEGAL`. -/
theorem illegalConfigurationIsRefused : Obligations.IllegalConfigurationIsRefused := by
  refine ⟨fun s tx txs hl hm => ?_, fun _ _ _ _ => rfl⟩
  rw [step_of_transaction hm]
  split
  next hb =>
    have hf : s.config.family = none := by simpa [legal, hb] using hl
    rw [hf]
    rfl
  · rfl

end Sys2Proof.Machine
end

section
/-! PROOFS. Load, save and restore (60_exceptions.md, 70_reset_and_hazards.md): the image in its banks, RAM handed out and
given back, and what the windows show at once after load. -/

namespace Sys2Proof

/-- An address above every listed one reads as blank. -/
theorem Memory.read_of_below {m : Memory} {n k : Nat} (h : m.below n) (hk : n ≤ k) : m.read k = Memory.blank := by
  induction m with
  | nil => rfl
  | cons c m ih =>
    have hc := h c (by simp)
    rw [Memory.read, if_neg (by omega)]
    exact ih fun x hx => h x (List.mem_cons_of_mem _ hx)

/-- A canonical memory below `n` is the memory of its first `n` bytes. -/
theorem Memory.ofBytes_map_read {m : Memory} {n : Nat} (hwf : m.wf) (hb : m.below n) :
    Memory.ofBytes 0 ((List.range n).map m.read) = m := by
  refine Memory.eq_of_read_eq (Memory.wf_ofBytes 0 _) hwf fun k => ?_
  rw [← Nat.zero_add k, Memory.read_ofBytes, Nat.zero_add, List.getD_eq_getElem?_getD, List.getElem?_map]
  by_cases hk : k < n
  · rw [List.getElem?_range hk]
    rfl
  · rw [List.getElem?_eq_none (by simpa using hk), Memory.read_of_below hb (Nat.le_of_not_lt hk)]
    rfl

/-- The memory of a list of bytes holds each byte at its place. -/
theorem Memory.getElem?_eq_read_ofBytes {bs : List Byte} {j : Nat} (hj : j < bs.length) :
    bs[j]? = some ((Memory.ofBytes 0 bs).read j) := by
  rw [← Nat.zero_add j, Memory.read_ofBytes, Nat.zero_add, List.getElem?_eq_getElem hj, List.getD_eq_getElem _ _ hj]

end Sys2Proof

namespace Sys2Proof.Machine

/-! ## The load event (R109, R110, R122, R124) -/

theorem legal_iff (c : Config) :
    legal c = true ↔ c.family ≠ none ∧ c.imageLen % 0x4000 = 0 ∧ c.imageLen ≠ 0 ∧ c.nRamBanks ≠ 0 := by
  rw [legal, Bool.and_eq_true_iff, buildable_iff, Option.isSome_iff_ne_none]

theorem load_malformed {raw : List Byte} (h : raw.length % 0x4000 ≠ 0 ∨ raw.length = 0) (c : Config) :
    load raw c = .error .malformedImage := if_pos h

theorem load_of_wellFormed {raw : List Byte} (hmod : raw.length % 0x4000 = 0) (hne : raw.length ≠ 0) (c : Config) :
    load raw c = if c.family = none then .error .unknownCartridgeType else if c.nRamBanks = 0 then .error .noRamBank
      else .ok (State.atLoad (attachImage raw c) []) := if_neg (by simp [progBankSize, hmod, hne])

theorem load_malformed_iff (raw : List Byte) (c : Config) :
    load raw c = .error .malformedImage ↔ raw.length % 0x4000 ≠ 0 ∨ raw.length = 0 := by
  refine ⟨fun h => ?_, fun h => load_malformed h c⟩
  by_contra hraw
  obtain ⟨hmod, hne⟩ := not_or.1 hraw
  rw [load_of_wellFormed (not_not.1 hmod) hne] at h
  split_ifs at h <;> cases h

/-- The banks of a loaded image hold its bytes in order (R29, R41). -/
theorem getElem?_eq_romRead_attachImage {raw : List Byte} {b o : Nat} (c : Config)
    (h : b * 0x4000 + o < raw.length) : raw[b * 0x4000 + o]? = some (romRead (attachImage raw c) b o) :=
  Memory.getElem?_eq_read_ofBytes h

theorem inv_atLoad_attachImage (raw : List Byte) (c : Config) : Inv (State.atLoad (attachImage raw c) []) :=
  inv_atLoad Memory.wf_nil (by simp) (Memory.wf_ofBytes 0 raw) (Memory.below_ofBytes raw)

/-! ## The windows at once after load (R125) -/

/-- The load value of the upper-window selector is 1, in every family and under both bindings. -/
theorem romxSel_atLoad (c : Config) : romxSel c (Regs.atLoad c) = 1#9 := by
  simp only [romxSel, Regs.atLoad_sec, Regs.atLoad_bank1]
  split
  case h_3 =>
    split
    · split <;> rfl
    · rfl
  all_goals rfl

/-- After load the gate is closed but under NoMapper with RAM. -/
theorem ramGate_atLoad {c : Config} (h : c.family ≠ some .noMapper ∨ c.hasRam = false) :
    ramGate c (Regs.atLoad c) = false := by
  unfold ramGate
  split
  case h_1 hf => exact h.resolve_left (not_not.2 hf)
  all_goals rfl

/-- Behind a closed gate a read of the RAM window gives open bus, but under Family7, which has no gate. -/
theorem exec_decodeRamRead_of_gate_closed_ne_family7 {f : Family} (h7 : f ≠ .family7) {s : State}
    (hg : ramGate s.config s.regs = false) (a : Addr) :
    exec (decodeRamRead f a) s = .next { s with last := some ⟨.ok, some s.config.openBus, .idle⟩ } := by
  by_cases h2 : f = .family2
  · subst h2
    exact execRdRamF2_of_gate_closed hg a
  · rw [exec_decodeRamRead_eq_ramWindowRead h2 h7]
    exact ramWindowRead_of_gate_closed hg a

/-- What an upper-window read answers: the byte of the bank that the selector names after the wrap (R36, R61). -/
def upperResponse (c : Config) (sel : Nat) (a : Addr) : Response :=
  ⟨.ok, some (romRead c (sel % c.nRomBanks) (a.toNat - 0x4000)), .rom (sel % c.nRomBanks) (a.toNat - 0x4000)⟩

section

variable {s : State} {a : Addr} (hl : legal s.config = true)

include hl

theorem issueAll_rd_upper (hlo : 0x4000 ≤ a.toNat) (hhi : a.toNat ≤ 0x7FFF) : issueAll [rd a] s =
    .next ((s.setMaster []).respond (upperResponse s.config (romxSel s.config s.regs).toNat a)) := by
  obtain ⟨f, hf⟩ := family_of_legal hl
  rw [issueAll_singleton hf hl]
  simp only [rd]
  rw [decode_of_upper ⟨hlo, hhi⟩]
  exact upperWindowReadsWrappedBank (s.setMaster []) a _ hlo hhi rfl

theorem responseTo_rd_of_ramWindow {f : Family} {t : State} (hf : s.config.family = some f) (ha : inRamWindow a)
    (h : exec (decodeRamRead f a) (s.setMaster []) = .next t) : responseTo (rd a) s = t.last := by
  simp only [responseTo, issueAll_rd_of_ramWindow hf hl ha, h]

end

/-! ## The statements -/

/-- Settles O54: the three failures are tested in order, and past them the image is attached to the state after load. -/
theorem loadChecksItsImage : Obligations.LoadChecksItsImage := by
  intro raw c
  refine ⟨load_malformed_iff raw c, fun hmod hne hf => ?_, fun hmod hne hf hram => ?_, fun hmod hne hf hram => ?_⟩
  · rw [load_of_wellFormed hmod hne, if_pos hf]
  · rw [load_of_wellFormed hmod hne, if_neg hf, if_pos hram]
  · have hl : legal (attachImage raw c) = true := (legal_iff _).2 ⟨hf, hmod, hne, hram⟩
    have hbanks : (attachImage raw c).nRomBanks * 0x4000 = raw.length :=
      (nRomBanks_of_buildable (buildable_of_legal hl)).1
    refine ⟨State.atLoad (attachImage raw c) [], ?_, rfl, rfl, Memory.read_nil, rfl, hl, inv_atLoad_attachImage raw c,
      hbanks, fun b o ho hb => getElem?_eq_romRead_attachImage c ?_⟩
    · rw [load_of_wellFormed hmod hne, if_neg hf, if_neg hram]
    · rw [State.atLoad_config] at hb
      omega

/-- Settles O55: the bytes handed out are the RAM cell by cell, and a canonical RAM within its banks is the memory of its
bytes. -/
theorem saveThenRestoreKeepsRam : Obligations.SaveThenRestoreKeepsRam := by
  have length (s : State) : (saveRam s).length = s.config.nRamBanks * ramBankSize := by simp [saveRam]
  refine ⟨fun s => ⟨length s, fun k hk => ?_⟩, fun s hi => ?_, fun s bytes h => if_neg fun ⟨hlast, _⟩ => h hlast⟩
  · rw [saveRam, List.getElem?_map, ramBankSize, List.getElem?_range hk]
    rfl
  · obtain ⟨-, hwf, hbelow, -⟩ := hi
    rw [restoreRam, if_pos ⟨rfl, length s⟩, saveRam, Memory.ofBytes_map_read hwf hbelow]
    rfl

/-- Settles O53: the selector is 1 and the gate is closed, but for NoMapper's strap. -/
theorem windowsAfterLoad : Obligations.WindowsAfterLoad := by
  intro c m a hl
  refine ⟨fun hlo hhi => ⟨.rom (1 % c.nRomBanks) (a.toNat - 0x4000), ?_⟩, fun ha hgate h7 => ?_,
    fun ha hf hram => ⟨.ram 0 (a.toNat - 0xA000) none, ?_⟩, fun ha hf => ?_⟩
  · rw [responseTo, issueAll_rd_upper (s := State.atLoad c m) hl hlo hhi, State.atLoad_config, State.atLoad_regs,
      romxSel_atLoad]
    rfl
  · obtain ⟨f, hf⟩ := family_of_legal hl
    exact responseTo_rd_of_ramWindow (s := State.atLoad c m) hl hf ha
      (exec_decodeRamRead_of_gate_closed_ne_family7 (fun h => h7 (h ▸ hf)) (ramGate_atLoad hgate) a)
  · have hg : ramGate c (Regs.atLoad c) = true := (ramGate_noMapper hf _).trans hram
    have hk : a.toNat - 0xA000 = 0 * 0x2000 + (a.toNat - 0xA000) := by omega
    exact responseTo_rd_of_ramWindow (s := State.atLoad c m) hl hf ha
      (ramWindowRead_readsOneCell (s := State.atLoad c m) hg (ramTarget_noMapper hf _ ha) hk)
  · exact responseTo_rd_of_ramWindow (s := State.atLoad c m) hl hf ha rfl

end Sys2Proof.Machine
end

section
/-! PROOFS. Bank switches (70_reset_and_hazards.md): the very next read of the upper window shows the selector a register
write leaves, also where the write is one of two that a selector takes. -/

namespace Sys2Proof.Machine

/-! ## A register write, then a read of the upper window -/

/-- The operation of a program-window write that loads the registers `q` from `r` gives the write its effect. -/
theorem writesRegs_of_decodeRegWrite {f : Family} {c : Config} {w : Addr} {v : Byte} {r q : Regs} {i : Instr}
    (hw : inProgramWindow w) (hi : decodeRegWrite f w v = i)
    (hx : ∀ u : State, u.config = c → u.regs = r → exec i u = endWrite .idle (u.setRegs q)) :
    WritesRegs f c w v r q := by
  intro u hc hr
  rw [decode_write_of_programWindow hw, hi]
  exact hx u hc hr

/-- The read answers from the registers the write leaves. -/
theorem upperReadAfter_of_writesRegs {s : State} {f : Family} {a w : Addr} {v : Byte} {q : Regs} {sel : Nat}
    (hf : s.config.family = some f) (hl : legal s.config = true) (hlo : 0x4000 ≤ a.toNat) (hhi : a.toNat ≤ 0x7FFF)
    (hv : WritesRegs f s.config w v s.regs q) (hsel : (romxSel s.config q).toNat = sel) :
    upperReadAfter (wr w v) a sel s := by
  subst hsel
  exact ⟨_, (issueAll_wr_cons hf hl hv [rd a]).trans
    (issueAll_rd_upper (s := (s.setRegs q).respond wroteNothing) hl hlo hhi), rfl⟩

/-! ## The register writes by the address ranges of R54 -/

section

variable {w : Addr} (c : Config) (r : Regs) (v : Byte)

theorem writesRegs_f1BankLo_of_range (hlo : 0x2000 ≤ w.toNat) (hhi : w.toNat ≤ 0x3FFF) :
    WritesRegs .family1 c w v r { r with bank1 := bank1SetLow5 r.bank1 (remapZero (low5 v)) } := by
  refine writesRegs_of_decodeRegWrite (i := .wrF1BankLo w v) (hhi.trans (by decide)) ?_ ?_
  · rw [decodeRegWrite, decodeF1_eq, if_neg (by omega), if_pos hhi]
  · rintro u rfl rfl
    rfl

theorem writesRegs_f1Sec_of_range (hlo : 0x4000 ≤ w.toNat) (hhi : w.toNat ≤ 0x5FFF) :
    WritesRegs .family1 c w v r (secWritten c r v) := by
  refine writesRegs_of_decodeRegWrite (i := .wrF1Sec w v) (hhi.trans (by decide)) ?_ ?_
  · rw [decodeRegWrite, decodeF1_eq, if_neg (by omega), if_neg (by omega), if_pos hhi]
  · rintro u rfl rfl
    exact execWrF1Sec_eq w v u

theorem writesRegs_f1Mode_of_range (hlo : 0x6000 ≤ w.toNat) (hhi : w.toNat ≤ 0x7FFF) :
    WritesRegs .family1 c w v r { r with mode := low1 v == 1#1 } := by
  refine writesRegs_of_decodeRegWrite (i := .wrF1Mode w v) hhi ?_ ?_
  · rw [decodeRegWrite, decodeF1_eq, if_neg (by omega), if_neg (by omega), if_neg (by omega)]
  · rintro u rfl rfl
    rfl

theorem writesRegs_f2Bank_of_range (hlo : 0x2000 ≤ w.toNat) (hhi : w.toNat ≤ 0x3FFF) (h8 : w.toNat / 256 % 2 = 1) :
    WritesRegs .family2 c w v r { r with bank1 := bank1SetLow4 r.bank1 (remapZero (low4 v)) } := by
  refine writesRegs_of_decodeRegWrite (i := .wrF2Bank w v) (hhi.trans (by decide)) ?_ ?_
  · rw [decodeRegWrite, decodeF2_eq, if_neg (by omega), if_pos hhi, if_pos (by rw [bit8_eq, h8]; rfl)]
  · rintro u rfl rfl
    rfl

theorem writesRegs_f3Bank_of_range (hlo : 0x2000 ≤ w.toNat) (hhi : w.toNat ≤ 0x3FFF) :
    WritesRegs .family3 c w v r { r with bank1 := bank1SetLow7 r.bank1 (remapZero (low7 v)) } := by
  refine writesRegs_of_decodeRegWrite (i := .wrF3Bank w v) (hhi.trans (by decide)) ?_ ?_
  · rw [decodeRegWrite, decodeF3_eq, if_neg (by omega), if_pos hhi]
  · rintro u rfl rfl
    rfl

theorem writesRegs_f5BankLo_of_range (hlo : 0x2000 ≤ w.toNat) (hhi : w.toNat ≤ 0x2FFF) :
    WritesRegs .family5 c w v r { r with bank1 := bank1SetLow8 r.bank1 v } := by
  refine writesRegs_of_decodeRegWrite (i := .wrF5BankLo w v) (hhi.trans (by decide)) ?_ ?_
  · rw [decodeRegWrite, decodeF5_eq, if_neg (by omega), if_pos hhi]
  · rintro u rfl rfl
    rfl

theorem writesRegs_f5BankHi_of_range (hlo : 0x3000 ≤ w.toNat) (hhi : w.toNat ≤ 0x3FFF) :
    WritesRegs .family5 c w v r { r with bank1 := bank1SetBit8 r.bank1 (low1 v) } := by
  refine writesRegs_of_decodeRegWrite (i := .wrF5BankHi w v) (hhi.trans (by decide)) ?_ ?_
  · rw [decodeRegWrite, decodeF5_eq, if_neg (by omega), if_neg (by omega), if_pos hhi]
  · rintro u rfl rfl
    rfl

end

/-! ## The selector a write leaves (R38), from the selector before it -/

section

variable {c : Config} (r : Regs) (v : Byte)

theorem toNat_romxSel_f1BankLo (hf : c.family = some .family1) :
    (romxSel c { r with bank1 := bank1SetLow5 r.bank1 (remapZero (low5 v)) }).toNat =
      (romxSel c r).toNat / 32 * 32 + (if v.toNat % 32 = 0 then 1 else v.toNat % 32) := by
  have hlt := (remapZero (low5 v)).isLt
  rw [← toNat_remapZero_low5]
  cases hb : c.secBinding with
  | atAccess =>
    simp only [toNat_romxSel_family1_atAccess hf hb, toNat_bank1SetLow5]
    split <;> omega
  | atWrite =>
    simp only [toNat_romxSel_family1_atWrite hf hb, toNat_bank1SetLow5]
    omega

/-- The low five bits of the selector are those of `bank1`, under both bindings. -/
theorem toNat_romxSel_family1_mod (hf : c.family = some .family1) :
    (romxSel c r).toNat % 32 = r.bank1.toNat % 32 := by
  cases hb : c.secBinding with
  | atAccess =>
    rw [toNat_romxSel_family1_atAccess hf hb]
    split <;> omega
  | atWrite =>
    rw [toNat_romxSel_family1_atWrite hf hb]
    omega

/-- In mode 1 the secondary bits are no part of the selector. -/
theorem toNat_romxSel_secWritten_of_mode1 (hf : c.family = some .family1) (hmode : r.mode = true) :
    (romxSel c (secWritten c r v)).toNat = (romxSel c r).toNat := by
  cases hb : c.secBinding with
  | atAccess =>
    rw [secWritten_atAccess _ _ hb, toNat_romxSel_family1_atAccess hf hb, toNat_romxSel_family1_atAccess hf hb,
      if_pos hmode, if_pos hmode]
  | atWrite =>
    rw [secWritten_atWrite_mode1 _ _ hb hmode, toNat_romxSel_family1_atWrite hf hb, toNat_romxSel_family1_atWrite hf hb]

theorem toNat_romxSel_f1Sec (hf : c.family = some .family1) : (romxSel c (secWritten c r v)).toNat =
    if r.mode then (romxSel c r).toNat else 32 * (v.toNat % 4) + (romxSel c r).toNat % 32 := by
  cases hmode : r.mode with
  | true => exact toNat_romxSel_secWritten_of_mode1 r v hf hmode
  | false =>
    rw [toNat_romxSel_secWritten hf hmode, toNat_romxSel_family1_mod r hf, Nat.mul_comm]
    rfl

theorem toNat_romxSel_f1Mode_atAccess (hf : c.family = some .family1) (hb : c.secBinding = .atAccess) :
    (romxSel c { r with mode := low1 v == 1#1 }).toNat =
      (if v.toNat % 2 = 1 then 0 else 32 * r.sec.toNat) + (romxSel c r).toNat % 32 := by
  rw [toNat_romxSel_family1_mod r hf, toNat_romxSel_family1_atAccess hf hb, low1_beq_one]
  simp only [decide_eq_true_iff]

theorem toNat_romxSel_f1Mode_atWrite (hf : c.family = some .family1) (hb : c.secBinding = .atWrite) :
    (romxSel c { r with mode := low1 v == 1#1 }).toNat = (romxSel c r).toNat := by
  rw [toNat_romxSel_family1_atWrite hf hb, toNat_romxSel_family1_atWrite hf hb]

theorem toNat_romxSel_f2Bank (hf : c.family = some .family2) :
    (romxSel c { r with bank1 := bank1SetLow4 r.bank1 (remapZero (low4 v)) }).toNat =
      if v.toNat % 16 = 0 then 1 else v.toNat % 16 := by
  have hlt := (remapZero (low4 v)).isLt
  rw [toNat_romxSel_family2 hf, toNat_bank1SetLow4, ← toNat_remapZero_low4]
  omega

theorem toNat_romxSel_f3Bank (hf : c.family = some .family3) :
    (romxSel c { r with bank1 := bank1SetLow7 r.bank1 (remapZero (low7 v)) }).toNat =
      if v.toNat % 128 = 0 then 1 else v.toNat % 128 := by
  have hlt := (remapZero (low7 v)).isLt
  rw [toNat_romxSel_family3 hf, toNat_bank1SetLow7, ← toNat_remapZero_low7]
  omega

theorem romxSel_family5 (hf : c.family = some .family5) : romxSel c r = r.bank1 := by
  simp only [romxSel, hf]

theorem toNat_romxSel_f5BankLo (hf : c.family = some .family5) :
    (romxSel c { r with bank1 := bank1SetLow8 r.bank1 v }).toNat = (romxSel c r).toNat / 256 * 256 + v.toNat := by
  rw [romxSel_family5 _ hf, romxSel_family5 _ hf, toNat_bank1SetLow8]

theorem toNat_romxSel_f5BankHi (hf : c.family = some .family5) :
    (romxSel c { r with bank1 := bank1SetBit8 r.bank1 (low1 v) }).toNat =
      256 * (v.toNat % 2) + (romxSel c r).toNat % 256 := by
  rw [romxSel_family5 _ hf, romxSel_family5 _ hf, toNat_bank1SetBit8, toNat_low1, Nat.mul_comm]

end

/-! ## The fields of a selector in the bytes of its two writes -/

/-- `n[7:0]` of a 9-bit selector, as the Family5 write takes it. -/
theorem toNat_low8Field (n : BitVec 9) : (n.extractLsb' 0 8).toNat = n.toNat % 256 := BitVec.extractLsb'_toNat 0 8 n

/-- `n[8]` of a 9-bit selector, as the Family5 write takes it. -/
theorem toNat_bit8Field (n : BitVec 9) : ((n.extractLsb' 8 1).setWidth 8).toNat % 2 = n.toNat / 256 := by
  have := n.isLt
  rw [BitVec.toNat_setWidth_of_le (by decide), BitVec.extractLsb'_toNat, Nat.shiftRight_eq_div_pow]
  omega

/-- `n[4:0]` of a 7-bit selector, as the Family1 write takes it. -/
theorem toNat_low5Field (n : BitVec 7) : ((n.extractLsb' 0 5).setWidth 8).toNat % 32 = n.toNat % 32 := by
  rw [BitVec.toNat_setWidth_of_le (by decide), BitVec.extractLsb'_toNat, Nat.shiftRight_zero]
  exact Nat.mod_mod _ _

/-! ## The statements -/

/-- Settles O58: each write leaves registers from which the read takes its selector. -/
theorem bankSwitchIsSeenByTheNextRead : Obligations.BankSwitchIsSeenByTheNextRead := by
  rintro s a w v old hl rfl hlo hhi
  refine ⟨fun hf => ⟨fun hw hw' => ?_, fun hw hw' => ?_, fun hw hw' hb => ?_, fun hw hw' hb => ?_⟩,
    fun hf hw hw' h8 => ?_, fun hf hw hw' => ?_, fun hf => ⟨fun hw hw' => ?_, fun hw hw' => ?_⟩⟩
  · exact upperReadAfter_of_writesRegs hf hl hlo hhi (writesRegs_f1BankLo_of_range _ _ v hw hw')
      (toNat_romxSel_f1BankLo s.regs v hf)
  · exact upperReadAfter_of_writesRegs hf hl hlo hhi (writesRegs_f1Sec_of_range _ _ v hw hw')
      (toNat_romxSel_f1Sec s.regs v hf)
  · exact upperReadAfter_of_writesRegs hf hl hlo hhi (writesRegs_f1Mode_of_range _ _ v hw hw')
      (toNat_romxSel_f1Mode_atAccess s.regs v hf hb)
  · exact upperReadAfter_of_writesRegs hf hl hlo hhi (writesRegs_f1Mode_of_range _ _ v hw hw')
      (toNat_romxSel_f1Mode_atWrite s.regs v hf hb)
  · exact upperReadAfter_of_writesRegs hf hl hlo hhi (writesRegs_f2Bank_of_range _ _ v hw hw' h8)
      (toNat_romxSel_f2Bank s.regs v hf)
  · exact upperReadAfter_of_writesRegs hf hl hlo hhi (writesRegs_f3Bank_of_range _ _ v hw hw')
      (toNat_romxSel_f3Bank s.regs v hf)
  · exact upperReadAfter_of_writesRegs hf hl hlo hhi (writesRegs_f5BankLo_of_range _ _ v hw hw')
      (toNat_romxSel_f5BankLo s.regs v hf)
  · exact upperReadAfter_of_writesRegs hf hl hlo hhi (writesRegs_f5BankHi_of_range _ _ v hw hw')
      (toNat_romxSel_f5BankHi s.regs v hf)

/-- Settles O57: each of the two writes alone leaves the selector with one field of the new number and the rest as
it was. -/
theorem halfWrittenSelectorIsVisible : Obligations.HalfWrittenSelectorIsVisible := by
  refine ⟨fun s n a hf hl hlo hhi => ⟨?_, ?_⟩, ?_⟩
  · refine upperReadAfter_of_writesRegs hf hl hlo hhi (writesRegs_f5BankLo _ _ _) ?_
    rw [toNat_romxSel_f5BankLo _ _ hf, romxSel_family5 _ hf, toNat_low8Field]
  · refine upperReadAfter_of_writesRegs hf hl hlo hhi (writesRegs_f5BankHi _ _ _) ?_
    rw [toNat_romxSel_f5BankHi _ _ hf, romxSel_family5 _ hf, toNat_bit8Field, Nat.mul_comm]
  · rintro s n a old hf hl hmode rfl hlo hhi
    constructor
    · refine upperReadAfter_of_writesRegs hf hl hlo hhi (writesRegs_f1BankLo _ _ _) ?_
      rw [toNat_romxSel_f1BankLo _ _ hf, toNat_low5Field]
    · refine upperReadAfter_of_writesRegs hf hl hlo hhi (writesRegs_f1Sec _ _ _) ?_
      rw [toNat_romxSel_secWritten hf hmode, toNat_highField, toNat_romxSel_family1_mod _ hf]

end Sys2Proof.Machine
end

section
/-! PROOFS. The words of 95_test_vectors.md section 3.1. -/

namespace Sys2Proof.Machine

/-- A number of 28 bits decodes to what its word decodes to. -/
theorem decodeTableWord_of_lt {w : Nat} (h : w < 2 ^ 28) (nbits : Nat) :
    decodeTableWord nbits w = some (decodeWord (BitVec.ofNat 28 w)) := by
  simp only [decodeTableWord, decodeNumber, if_pos h]

/-- Settles O6, word by word, by running the decoder. -/
theorem listedWordsDecode : Obligations.ListedWordsDecode := by
  refine ⟨?_, ?_, ?_, ?_, ?_, ?_, ?_, ?_, ?_, ?_⟩
  all_goals
    rw [decodeTableWord_of_lt (by decide)]
    decide

end Sys2Proof.Machine
end
